-- ==== Sys2Proof/Word.lean ====
section
/-! DEFINITION. The word types of the SDT block and their plainest conversions (spec 00_scope R21, 30_encoding R69). -/

namespace Sys2Proof

/-- A 32-bit register, datum or system address (R21, R35, R72). -/
abbrev Word := BitVec 32

/-- One table code, one pixel: 8 bits (R40, R55, R74). -/
abbrev Byte := BitVec 8

/-- A byte offset inside the block's 4 KiB window: 12 bits (R48, R69). -/
abbrev Offset := BitVec 12

/-- The operation word `op[15:0]` (R69). -/
abbrev OpWord := BitVec 16

/-- A mode preset. The 2-bit value 3 is never held (R34, R36), so three values are left. -/
abbrev Preset := Fin 3

end Sys2Proof
end

