-- ==== Sys2Proof/Config.lean ====
section
/-! DEFINITION. The parameters of the SDT block (spec 00_scope R9 to R20): those the spec fixes, as constants; those it leaves OPEN, as the structure `Platform` or as constants without a body. -/

namespace Sys2Proof.Config

/-- R9: a frame has 312 scanlines. -/
def linesPerFrame : Nat := 312

/-- R10: a waveform table holds 32 codes, and a sync transfer moves 32. -/
def tableLen : Nat := 32

/-- R11: the length of one slot in microseconds. No rule of the block depends on it. -/
def slotTimeUs : Nat := 2

/-- R11: the length of one line in microseconds. No rule of the block depends on it. -/
def lineTimeUs : Nat := 64

/-- R12: the number of waveform tables. -/
def numTables : Nat := 5

/-- R13: the framebuffer's row count, the same in every preset. -/
def height : Nat := 256

/-- R14: `WIDTH(p)`, the framebuffer row length in bytes. -/
def width (p : Preset) : Nat :=
  match p with
  | 0 => 256
  | 1 => 320
  | 2 => 640

/-- R15: the preset an unknown MODE value falls back to. -/
def defaultPreset : Preset := 0

/-- R19: the SYNC slots at the start of a BD or AL line. -/
def hsyncSlots : Nat := 2

/-- R19: the SYNC slots of a long pulse. -/
def longSlots : Nat := 14

/-- R19: the SYNC slots of a short pulse. -/
def shortSlots : Nat := 1

/-- R19: the first pass-through slot of AL. -/
def gapStart : Nat := 8

/-- R19: the number of pass-through slots of AL. -/
def gapLen : Nat := 20

/-- R48: the size of the block's bus window in bytes. -/
def windowBytes : Nat := 4096

/-- R18, R49: the window offset of `T[0]`; `TABLE_BASE = BLOCK_BASE + 0x100`. -/
def tableOffset : Nat := 0x100

/-- R40: the size of the table memory in bytes. -/
def tableBytes : Nat := 160

/-- R16: `DIVISOR(p)`, OPEN. No body: nothing can be proved of its values. DESIGN CHOICE: the spec defines no type
`Divisor`; the model takes natural numbers for it, so no fractional divisor (notes/assumptions/2.md). -/
opaque divisor : Preset → Nat

/-- R77: the electrical level of a code, OPEN and outside the block. No body. DESIGN CHOICE: the spec defines no type
`Level`; the model takes natural numbers for it (notes/assumptions/2.md). -/
opaque level : Byte → Nat

end Sys2Proof.Config

namespace Sys2Proof

/-- The two OPEN parameters a step of the block depends on. They are fixed for one machine; State carries
them so that every statement about all states holds for every value of them (notes/assumptions/1.md). -/
structure Platform where
  /-- R17: `BORDER_MAX`, an integer in 0..63. -/
  borderMax : BitVec 6
  /-- R18: bits [31:12] of `BLOCK_BASE`, which is a multiple of 0x1000. -/
  blockPage : BitVec 20
  deriving DecidableEq, Repr

end Sys2Proof
end

