-- ==== Sys2Proof/Syntax.lean ====
section
/-! DEFINITION. The operation set of the SDT block: one constructor per row of spec/opcode_table.json (R4, R69, R78 to R80, R84). -/

namespace Sys2Proof

/-- The access size SZ of a host word (R69, R70). -/
inductive AccessSize where
  | byte
  | half
  | word
  deriving DecidableEq, Repr

/-- What the bus slave port carries: an operation word and the 32-bit write datum (R47, R69).
For a word that is no host write the datum lines mean nothing. -/
structure Access where
  op    : OpWord
  wdata : Word
  deriving DecidableEq, Repr

/-- The operations. Every host write carries `wdata` (R69); `off` is the 12-bit OFF field (R70). -/
inductive Instr where
  -- register reads, R112 to R121
  | rdCtrl
  | rdStatus
  | rdVline
  | rdBline
  | rdFrame
  | rdBorder
  | rdMode
  | rdFbBase
  | rdFbPend
  | rdGeom
  -- register writes, R122 to R131
  | wrCtrl   (wdata : Word)
  | wrStatus (wdata : Word)
  | wrVline  (wdata : Word)
  | wrBline  (wdata : Word)
  | wrFrame  (wdata : Word)
  | wrBorder (wdata : Word)
  | wrMode   (wdata : Word)
  | wrFbBase (wdata : Word)
  | wrFbPend (wdata : Word)
  | wrGeom   (wdata : Word)
  -- reserved register offsets, R82 and R83
  | rdRsvr (off : Offset)
  | wrRsvr (off : Offset) (wdata : Word)
  -- table window, R132 and R133
  | rdBTbl (off : Offset)
  | rdHTbl (off : Offset)
  | rdWTbl (off : Offset)
  | wrBTbl (off : Offset) (wdata : Word)
  | wrHTbl (off : Offset) (wdata : Word)
  | wrWTbl (off : Offset) (wdata : Word)
  -- reserved region, R134 and R135
  | rdBRsv (off : Offset)
  | rdHRsv (off : Offset)
  | rdWRsv (off : Offset)
  | wrBRsv (off : Offset) (wdata : Word)
  | wrHRsv (off : Offset) (wdata : Word)
  | wrWRsv (off : Offset) (wdata : Word)
  -- BUSERR forms, R154
  | buserrMisalignedRdH (off : Offset)
  | buserrMisalignedRdW (off : Offset)
  | buserrWrongSizeRdB  (off : Offset)
  | buserrWrongSizeRdH  (off : Offset)
  | buserrMisalignedWrH (off : Offset) (wdata : Word)
  | buserrMisalignedWrW (off : Offset) (wdata : Word)
  | buserrWrongSizeWrB  (off : Offset) (wdata : Word)
  | buserrWrongSizeWrH  (off : Offset) (wdata : Word)
  -- events, R149, R151, R103, R137, R170
  | evSyncDone
  | evPixDone
  | evDispatch
  | evFeed
  | evReset
  -- words that name no operation, R84; `body` is op[13:0]
  | illegalClass11 (body : BitVec 14)
  | illegalEv      (body : BitVec 14)
  | illegalSz11    (write : Bool) (off : Offset)
  deriving DecidableEq, Repr

end Sys2Proof
end

