-- ==== Sys2Proof/WellFormed.lean ====
section
/-! DEFINITION. Which operation terms stand for an operation word: the operand ranges of the decode steps (R71, R78, R79, R84). -/

namespace Sys2Proof

/-- The access size in bytes, `n = 1 << SZ` (R70). -/
def AccessSize.bytes : AccessSize → Nat
  | .byte => 1
  | .half => 2
  | .word => 4

/-- R56: natural alignment, `o mod n = 0`. -/
abbrev Aligned (n : AccessSize) (off : Offset) : Prop := off.toNat % n.bytes = 0

/-- R49: the register region, offsets 0x000 to 0x0FF. -/
abbrev InRegisterRegion (off : Offset) : Prop := off.toNat ≤ 0x0FF

/-- R49: the table window, offsets 0x100 to 0x19F. -/
abbrev InTableWindow (off : Offset) : Prop := 0x100 ≤ off.toNat ∧ off.toNat ≤ 0x19F

/-- R49: the reserved region, offsets 0x1A0 to 0xFFF. -/
abbrev InReservedRegion (off : Offset) : Prop := 0x1A0 ≤ off.toNat

/-- R72: the reserved register offsets 0x028 to 0x0FC. -/
abbrev ReservedRegister (off : Offset) : Prop := 0x028 ≤ off.toNat ∧ off.toNat ≤ 0x0FC ∧ Aligned .word off

namespace Instr

/-- The operand ranges under which an operation is what its word decodes to (R71). -/
def wellFormed : Instr → Bool
  | rdCtrl | rdStatus | rdVline | rdBline | rdFrame | rdBorder | rdMode | rdFbBase | rdFbPend | rdGeom => true
  | wrCtrl _ | wrStatus _ | wrVline _ | wrBline _ | wrFrame _ | wrBorder _ | wrMode _ | wrFbBase _
  | wrFbPend _ | wrGeom _ => true
  | rdRsvr off | wrRsvr off _ => decide (ReservedRegister off)
  | rdBTbl off | wrBTbl off _ => decide (InTableWindow off)
  | rdHTbl off | wrHTbl off _ => decide (InTableWindow off ∧ Aligned .half off)
  | rdWTbl off | wrWTbl off _ => decide (InTableWindow off ∧ Aligned .word off)
  | rdBRsv off | wrBRsv off _ => decide (InReservedRegion off)
  | rdHRsv off | wrHRsv off _ => decide (InReservedRegion off ∧ Aligned .half off)
  | rdWRsv off | wrWRsv off _ => decide (InReservedRegion off ∧ Aligned .word off)
  | buserrMisalignedRdH off | buserrMisalignedWrH off _ => decide (¬ Aligned .half off)
  | buserrMisalignedRdW off | buserrMisalignedWrW off _ => decide (¬ Aligned .word off)
  | buserrWrongSizeRdB off | buserrWrongSizeWrB off _ => decide (InRegisterRegion off)
  | buserrWrongSizeRdH off | buserrWrongSizeWrH off _ => decide (InRegisterRegion off ∧ Aligned .half off)
  | evSyncDone | evPixDone | evDispatch | evFeed | evReset => true
  | illegalClass11 _ => true
  | illegalEv body => decide (5 ≤ body.toNat)
  | illegalSz11 _ _ => true

/-- An operation term that stands for an operation word. -/
abbrev WellFormed (i : Instr) : Prop := i.wellFormed = true

end Instr

end Sys2Proof
end

