-- ==== Sys2Proof/Decode.lean ====
section
/-! DEFINITION. The decoder of the operation word (R69 to R71, R78 to R80, R84), total on every word, and after it the encoder. -/

namespace Sys2Proof

/-- CLASS, op[15:14] (R69). -/
def opClass (op : OpWord) : BitVec 2 := op.extractLsb' 14 2

/-- SZ, op[13:12] (R69). -/
def opSz (op : OpWord) : BitVec 2 := op.extractLsb' 12 2

/-- OFF, op[11:0] (R69). -/
def opOff (op : OpWord) : Offset := op.extractLsb' 0 12

/-- op[13:0]: the zero field and EVT of an event word (R69). -/
def opBody (op : OpWord) : BitVec 14 := op.extractLsb' 0 14

/-- R71 step 6 for a read: the register at OFF (R72, R78), or a reserved offset (R82). -/
def decodeRegRead (off : Offset) : Instr :=
  if off = 0x000 then .rdCtrl
  else if off = 0x004 then .rdStatus
  else if off = 0x008 then .rdVline
  else if off = 0x00C then .rdBline
  else if off = 0x010 then .rdFrame
  else if off = 0x014 then .rdBorder
  else if off = 0x018 then .rdMode
  else if off = 0x01C then .rdFbBase
  else if off = 0x020 then .rdFbPend
  else if off = 0x024 then .rdGeom
  else .rdRsvr off

/-- R71 step 6 for a write: the register at OFF (R72, R78), or a reserved offset (R83). -/
def decodeRegWrite (off : Offset) (wdata : Word) : Instr :=
  if off = 0x000 then .wrCtrl wdata
  else if off = 0x004 then .wrStatus wdata
  else if off = 0x008 then .wrVline wdata
  else if off = 0x00C then .wrBline wdata
  else if off = 0x010 then .wrFrame wdata
  else if off = 0x014 then .wrBorder wdata
  else if off = 0x018 then .wrMode wdata
  else if off = 0x01C then .wrFbBase wdata
  else if off = 0x020 then .wrFbPend wdata
  else if off = 0x024 then .wrGeom wdata
  else .wrRsvr off wdata

/-- R71 steps 4 to 8 for a host read. -/
def decodeRead (n : AccessSize) (off : Offset) : Instr :=
  match n with
  | .byte =>
    if InRegisterRegion off then .buserrWrongSizeRdB off
    else if InTableWindow off then .rdBTbl off
    else .rdBRsv off
  | .half =>
    if ¬ Aligned .half off then .buserrMisalignedRdH off
    else if InRegisterRegion off then .buserrWrongSizeRdH off
    else if InTableWindow off then .rdHTbl off
    else .rdHRsv off
  | .word =>
    if ¬ Aligned .word off then .buserrMisalignedRdW off
    else if InRegisterRegion off then decodeRegRead off
    else if InTableWindow off then .rdWTbl off
    else .rdWRsv off

/-- R71 steps 4 to 8 for a host write. -/
def decodeWrite (n : AccessSize) (off : Offset) (wdata : Word) : Instr :=
  match n with
  | .byte =>
    if InRegisterRegion off then .buserrWrongSizeWrB off wdata
    else if InTableWindow off then .wrBTbl off wdata
    else .wrBRsv off wdata
  | .half =>
    if ¬ Aligned .half off then .buserrMisalignedWrH off wdata
    else if InRegisterRegion off then .buserrWrongSizeWrH off wdata
    else if InTableWindow off then .wrHTbl off wdata
    else .wrHRsv off wdata
  | .word =>
    if ¬ Aligned .word off then .buserrMisalignedWrW off wdata
    else if InRegisterRegion off then decodeRegWrite off wdata
    else if InTableWindow off then .wrWTbl off wdata
    else .wrWRsv off wdata

/-- R71 step 2: op[13:3] must be 0 and EVT below 101, so op[13:0] is the event's number (R80). -/
def decodeEvent (body : BitVec 14) : Instr :=
  if body = 0 then .evSyncDone
  else if body = 1 then .evPixDone
  else if body = 2 then .evDispatch
  else if body = 3 then .evFeed
  else if body = 4 then .evReset
  else .illegalEv body

/-- SZ 00, 01, 10 (R70); 11 is reserved. -/
def sizeOfSz (sz : BitVec 2) : Option AccessSize :=
  if sz = 0b00 then some .byte
  else if sz = 0b01 then some .half
  else if sz = 0b10 then some .word
  else none

/-- R71: the decode steps in their order. Every word decodes; the words that name no operation decode to
the rows of the table that say so (R84). -/
def decode (a : Access) : Instr :=
  if opClass a.op = 0b11 then .illegalClass11 (opBody a.op)
  else if opClass a.op = 0b10 then decodeEvent (opBody a.op)
  else
    match sizeOfSz (opSz a.op) with
    | none => .illegalSz11 (opClass a.op == 0b01) (opOff a.op)
    | some n =>
      if opClass a.op = 0b00 then decodeRead n (opOff a.op)
      else decodeWrite n (opOff a.op) a.wdata

/-! The encoder. -/

/-- A host word from its fields CLASS, SZ and OFF (R69). -/
def hostWord (cls sz : BitVec 2) (off : Offset) : OpWord := cls ++ sz ++ off

/-- A word from CLASS and op[13:0] (R69). -/
def bodyWord (cls : BitVec 2) (body : BitVec 14) : OpWord := cls ++ body

/-- A host read word (CLASS 00). It carries no datum. -/
def readWord (sz : BitVec 2) (off : Offset) : Access := ⟨hostWord 0b00 sz off, 0⟩

/-- A host write word (CLASS 01) with its datum. -/
def writeWord (sz : BitVec 2) (off : Offset) (wdata : Word) : Access := ⟨hostWord 0b01 sz off, wdata⟩

/-- An event word (CLASS 10). -/
def eventWord (body : BitVec 14) : Access := ⟨bodyWord 0b10 body, 0⟩

/-- The word of an operation (R69, R78 to R80, R84). -/
def encode : Instr → Access
  | .rdCtrl => readWord 0b10 0x000
  | .rdStatus => readWord 0b10 0x004
  | .rdVline => readWord 0b10 0x008
  | .rdBline => readWord 0b10 0x00C
  | .rdFrame => readWord 0b10 0x010
  | .rdBorder => readWord 0b10 0x014
  | .rdMode => readWord 0b10 0x018
  | .rdFbBase => readWord 0b10 0x01C
  | .rdFbPend => readWord 0b10 0x020
  | .rdGeom => readWord 0b10 0x024
  | .wrCtrl d => writeWord 0b10 0x000 d
  | .wrStatus d => writeWord 0b10 0x004 d
  | .wrVline d => writeWord 0b10 0x008 d
  | .wrBline d => writeWord 0b10 0x00C d
  | .wrFrame d => writeWord 0b10 0x010 d
  | .wrBorder d => writeWord 0b10 0x014 d
  | .wrMode d => writeWord 0b10 0x018 d
  | .wrFbBase d => writeWord 0b10 0x01C d
  | .wrFbPend d => writeWord 0b10 0x020 d
  | .wrGeom d => writeWord 0b10 0x024 d
  | .rdRsvr off => readWord 0b10 off
  | .wrRsvr off d => writeWord 0b10 off d
  | .rdBTbl off => readWord 0b00 off
  | .rdHTbl off => readWord 0b01 off
  | .rdWTbl off => readWord 0b10 off
  | .wrBTbl off d => writeWord 0b00 off d
  | .wrHTbl off d => writeWord 0b01 off d
  | .wrWTbl off d => writeWord 0b10 off d
  | .rdBRsv off => readWord 0b00 off
  | .rdHRsv off => readWord 0b01 off
  | .rdWRsv off => readWord 0b10 off
  | .wrBRsv off d => writeWord 0b00 off d
  | .wrHRsv off d => writeWord 0b01 off d
  | .wrWRsv off d => writeWord 0b10 off d
  | .buserrMisalignedRdH off => readWord 0b01 off
  | .buserrMisalignedRdW off => readWord 0b10 off
  | .buserrWrongSizeRdB off => readWord 0b00 off
  | .buserrWrongSizeRdH off => readWord 0b01 off
  | .buserrMisalignedWrH off d => writeWord 0b01 off d
  | .buserrMisalignedWrW off d => writeWord 0b10 off d
  | .buserrWrongSizeWrB off d => writeWord 0b00 off d
  | .buserrWrongSizeWrH off d => writeWord 0b01 off d
  | .evSyncDone => eventWord 0
  | .evPixDone => eventWord 1
  | .evDispatch => eventWord 2
  | .evFeed => eventWord 3
  | .evReset => eventWord 4
  | .illegalClass11 body => ⟨bodyWord 0b11 body, 0⟩
  | .illegalEv body => eventWord body
  | .illegalSz11 write off => if write then writeWord 0b11 off 0 else readWord 0b11 off

/-! The host's reading of a table word: bits [15:0] are the operation word, bits [47:16] the datum. -/

/-- The access whose bits are `w`, of which the lowest `nbits` are given and all others are 0: bits [15:0]
are the operation word and bits [47:16] the write datum (notes/assumptions/5.md). -/
def accessOfBits (nbits w : Nat) : Access :=
  ⟨BitVec.ofNat 16 (w % 2 ^ nbits), BitVec.ofNat 32 (w % 2 ^ nbits / 2 ^ 16)⟩

/-- The operation the decoder reads from an access of `nbits` bits; an access has 16 bits without its
datum and 48 with it (R69, R86). -/
def decodeTableWord (nbits w : Nat) : Option Instr :=
  if 16 ≤ nbits ∧ nbits ≤ 48 then some (decode (accessOfBits nbits w)) else none

end Sys2Proof
end

