-- ==== Sys2Proof/Machine/State.lean ====
section
/-! DEFINITION. The state of the SDT block and of the environment a model needs beside it (spec 10_state R27 to R47), as plain data, and its reset value (R170). -/

namespace Sys2Proof.Machine

/-- The two causes of BUS_ERROR (R153). -/
inductive BusErrorCause where
  /-- Cause code 1: `OFF mod n ≠ 0`, in any region. -/
  | misaligned
  /-- Cause code 2: an aligned access of 1 or 2 bytes to the register region. -/
  | wrongSize
  deriving DecidableEq, Repr

/-- A transfer in flight on a channel, the descriptor `(addr, count, done)` (R43). -/
structure Transfer where
  addr  : Word
  count : Nat
  done  : Nat
  deriving DecidableEq, Repr

/-- What the ports present in one step (R47). A step is one atomic transition of one agent (R23), so it
presents one of these. -/
inductive Output where
  /-- Nothing: a completion, a reset, or no step at all. -/
  | quiet
  /-- Bus slave port: the answer to a host read (R69, R111). -/
  | rdata (value : Word)
  /-- Bus slave port: the write-complete response (R111). -/
  | writeDone
  /-- Bus slave port: the error response, with cause and offset and no data (R153, R154). -/
  | busError (cause : BusErrorCause) (offset : Offset)
  /-- Sync start port: `sync_start(addr, count)` (R103). -/
  | syncStart (addr : Word) (count : Nat)
  /-- Picture start port: `pix_start(addr, count)` (R137). -/
  | pixStart (addr : Word) (count : Nat)
  /-- The code one element read of the sync channel got through the table window (R61, R148). -/
  | syncCode (code : Byte)
  /-- The address one element read of the picture channel goes to, and what system memory answered (R63, R150). -/
  | pixel (addr : Word) (value : Byte)
  deriving DecidableEq, Repr

/-- The two transfer channels (R8). -/
inductive Channel where
  | sync
  | picture
  deriving DecidableEq, Repr

/-- What the world outside, or a trace that names the block's own steps, asks the machine to do next (R8, R23, R80). -/
inductive Stimulus where
  /-- An operation word with its datum lines: a host access or a named event (R47, R69, R80). -/
  | access (op : OpWord) (wdata : Word)
  /-- The sync channel reads its next element (R61, R148). -/
  | syncRead
  /-- The picture channel reads its next element and system memory answers `value` (R63, R150). -/
  | pixRead (value : Byte)
  deriving DecidableEq, Repr

/-- The table memory as a list of (index of `T`, code), in one canonical form: indexes strictly rising below
160, and no entry equal to the reset contents, which is what an unlisted index reads as (R40, R91). -/
abbrev Memory := List Host.Cell

/-- The block, its environment state, what its ports presented last, and the stimuli still to come. -/
structure State where
  /-- R27: the line the next DISPATCH produces, 9 bits. -/
  vline : BitVec 9
  /-- R28: the frame counter, 32 bits. -/
  frame : Word
  /-- R29: the framebuffer row the next FEED hands out, 9 bits. -/
  bline : BitVec 9
  /-- R30: the enable bit. -/
  en : Bool
  /-- R31: the sync completion event is pending. -/
  syncPend : Bool
  /-- R32: the picture completion event is pending. -/
  pixPend : Bool
  /-- R33: the active border colour index, 6 bits. -/
  border : BitVec 6
  /-- R34: the current preset. -/
  curPreset : Preset
  /-- R35: the current framebuffer base. -/
  curBase : Word
  /-- R36: the pending preset. -/
  pendPreset : Preset
  /-- R37: the pending framebuffer base. -/
  pendBase : Word
  /-- R38: an update is pending. -/
  upd : Bool
  /-- R40: the table memory `T`. -/
  tbl : Memory
  /-- R43: the sync channel's transfer in flight; `SCH_BUSY` is 1 exactly when there is one. -/
  sch : Option Transfer
  /-- R43: the picture channel's transfer in flight; `PCH_BUSY` is 1 exactly when there is one. -/
  pch : Option Transfer
  /-- R17, R18: the OPEN parameters of this machine. No step changes them. -/
  plat : Platform
  /-- R149: whether this model steps the channels' element reads one at a time. If it does, a completion needs all of
  them (R148, R150); if it does not, a transfer in flight is taken as complete. The model's own field, a choice R149
  gives to a model; no step changes it (notes/assumptions/3.md). -/
  stepsElements : Bool
  /-- R47: what the ports presented in the step just taken. The model's own field. -/
  out : Output
  /-- The stimuli still to come, first to be taken first. The model's own field. -/
  inputs : List Stimulus
  deriving DecidableEq, Repr

/-- The block has no fault that stops it: DISPATCH, FEED, SYNC_DONE, PIX_DONE and RESET cannot fail, and
BUS_ERROR is the answer to one access, after which the machine goes on (R153, R160). So there is no constructor. -/
inductive Fault where
  deriving DecidableEq, Repr

/-- Why a step has no meaning. Each one is safe: the model stops where the spec says that a model refuses. -/
inductive Refusal where
  /-- Raised by `exec`'s arm for an operation without a meaning (safe). No arm raises it now. -/
  | notModelled (mnemonic : String)
  /-- Raised by the three ILLEGAL rows: the word names no operation (R84). Safe. -/
  | illegalWord
  /-- Raised by EV_SYNC_DONE when the sync channel has no transfer in flight, or one that is not complete (R81, R149).
  Safe. -/
  | syncDoneNotEnabled
  /-- Raised by EV_PIX_DONE when the picture channel has no transfer in flight, or one that is not complete (R81, R151).
  Safe. -/
  | pixDoneNotEnabled
  /-- Raised by EV_DISPATCH unless `EN = 1 ∧ SYNC_PEND = 1` (R81, R103). Safe. -/
  | dispatchNotEnabled
  /-- Raised by EV_FEED unless `EN = 1 ∧ PIX_PEND = 1` (R81, R137). Safe. -/
  | feedNotEnabled
  /-- Raised by a channel's element read when that channel has no element left to read (R148, R150). Safe. -/
  | elementReadNotEnabled (channel : Channel)
  /-- Raised by an element read in a model that does not step them (R149). Safe. -/
  | elementsNotStepped
  /-- Raised by the sync channel's element read when its address is outside the table window, which no
  reachable state has (R148). Safe. -/
  | elementOutsideTables
  deriving DecidableEq, Repr

/-- The OPEN parameters `State.reset` shows: the test configuration of 95_test_vectors (BORDER_MAX = 15,
BLOCK_BASE = 0x4000_0000). The spec leaves both open, and no statement rests on them (notes/assumptions/1.md). -/
def testPlatform : Platform := ⟨15, 0x40000⟩

/-- The machine right after RESET, as 10_state R27 to R40 and R43 and 70_reset R170 give it. -/
def State.reset : State where
  vline := 1
  frame := 0
  bline := 0
  en := false
  syncPend := false
  pixPend := false
  border := 0
  curPreset := Config.defaultPreset
  curBase := 0
  pendPreset := Config.defaultPreset
  pendBase := 0
  upd := false
  tbl := []
  sch := none
  pch := none
  plat := testPlatform
  stepsElements := false
  out := .quiet
  inputs := []

end Sys2Proof.Machine
end

