-- ==== Sys2Proof/Machine/Flags.lean ====
section
/-! DEFINITION. The status bits and the register words made from fields (R72): CTRL, STATUS, MODE and GEOM; the busy bits and the completeness of a transfer (R43, R148, R150); and the enabling conditions of the steps (R81). -/

namespace Sys2Proof.Machine

/-- R43: `SCH_BUSY`. -/
def State.schBusy (s : State) : Bool := s.sch.isSome

/-- R43: `PCH_BUSY`. -/
def State.pchBusy (s : State) : Bool := s.pch.isSome

/-- R148, R150: all elements of the transfer have been read. -/
def Transfer.complete (t : Transfer) : Bool := t.done == t.count

/-- R149: a transfer is complete when all its elements have been read; a model that does not step element reads
takes that as reached (notes/assumptions/3.md). -/
def State.takenAsComplete (s : State) (t : Transfer) : Bool := !s.stepsElements || t.complete

/-- R81, R149: SYNC_DONE is enabled when `SCH_BUSY = 1` and the transfer is complete. -/
def State.syncDoneEnabled (s : State) : Bool := s.sch.any s.takenAsComplete

/-- R81, R151: PIX_DONE is enabled when `PCH_BUSY = 1` and the transfer is complete. -/
def State.pixDoneEnabled (s : State) : Bool := s.pch.any s.takenAsComplete

/-- R81: DISPATCH is enabled when `EN = 1 ∧ SYNC_PEND = 1`. -/
def State.dispatchEnabled (s : State) : Bool := s.en && s.syncPend

/-- R81: FEED is enabled when `EN = 1 ∧ PIX_PEND = 1`. -/
def State.feedEnabled (s : State) : Bool := s.en && s.pixPend

/-- R112: `zext_32(EN)`. -/
def State.ctrlWord (s : State) : Word := (BitVec.ofBool s.en).setWidth 32

/-- R113: `zext_32({UPD, PIX_PEND, SYNC_PEND})`. -/
def State.statusWord (s : State) : Word :=
  (BitVec.ofBool s.upd ++ BitVec.ofBool s.pixPend ++ BitVec.ofBool s.syncPend).setWidth 32

/-- R34, R36: a preset as its 2-bit field. -/
def presetBits (p : Preset) : BitVec 2 := BitVec.ofNat 2 p.val

/-- R118: `zext_32({PEND_PRESET, 0b00, CUR_PRESET})`. -/
def State.modeWord (s : State) : Word :=
  (presetBits s.pendPreset ++ (0 : BitVec 2) ++ presetBits s.curPreset).setWidth 32

/-- R34: `CUR_WIDTH = WIDTH(CUR_PRESET)`. -/
def State.curWidth (s : State) : Nat := Config.width s.curPreset

/-- R121: `{zext_16(HEIGHT), zext_16(WIDTH(CUR_PRESET))}`. -/
def State.geomWord (s : State) : Word := BitVec.ofNat 16 Config.height ++ BitVec.ofNat 16 s.curWidth

/-- R34, R47: the divisor output `pix_div = DIVISOR(CUR_PRESET)`. -/
def State.pixDiv (s : State) : Nat := Config.divisor s.curPreset

end Sys2Proof.Machine
end

