-- ==== Sys2Proof/Machine/Tables.lean ====
section
/-! DEFINITION. The waveform codes (30_encoding R74 to R77), the five tables' slot layout (40_tables R89 to R94) and the line classifier (41_dispatch R100 to R102). -/

namespace Sys2Proof.Machine

/-- R12, R89: the five waveform tables. -/
inductive Table where
  | ll
  | ls
  | ss
  | bd
  | al
  deriving DecidableEq, Repr

/-- R12: the table's index. -/
def Table.index : Table → Nat
  | .ll => 0
  | .ls => 1
  | .ss => 2
  | .bd => 3
  | .al => 4

/-- R12: the tables in index order. -/
def Table.all : List Table := [.ll, .ls, .ss, .bd, .al]

/-- R75: the four kinds of code. -/
inductive CodeKind where
  | sync
  | blank
  | border
  | pass
  deriving DecidableEq, Repr

/-- R74: the pass-through class bit P of a code. -/
def passBit (c : Byte) : Bool := c.getLsbD 7

/-- R74: the border flag B of a code. -/
def borderFlag (c : Byte) : Bool := c.getLsbD 6

/-- R74: the level field L of a code. -/
def levelField (c : Byte) : BitVec 6 := c.extractLsb' 0 6

/-- R75: `BORDER(c)`, the code `0x40 + c`. -/
def borderCode (b : BitVec 6) : Byte := 0x40 + b.setWidth 8

/-- R75: the code of each kind, with border colour `b`. -/
def CodeKind.code (k : CodeKind) (b : BitVec 6) : Byte :=
  match k with
  | .sync => 0x00
  | .blank => 0x01
  | .border => borderCode b
  | .pass => 0x80

/-- R90: a half line of a vertical-sync table whose pulse has `n` slots; `h` is the position in the half line. -/
def pulseKind (n h : Nat) : CodeKind := if h < n then .sync else .blank

/-- R90: the kind of code at slot `s` of each table. -/
def slotKind (k : Table) (s : Nat) : CodeKind :=
  match k with
  | .ll => pulseKind Config.longSlots (s % 16)
  | .ls => pulseKind (if s < 16 then Config.longSlots else Config.shortSlots) (s % 16)
  | .ss => pulseKind Config.shortSlots (s % 16)
  | .bd => if s < Config.hsyncSlots then .sync else .border
  | .al =>
    if s < Config.hsyncSlots then .sync
    else if Config.gapStart ≤ s ∧ s < Config.gapStart + Config.gapLen then .pass
    else .border

/-- R40: the table that holds `T[i]`. -/
def tableOfIndex (i : Nat) : Table :=
  match i / Config.tableLen with
  | 0 => .ll
  | 1 => .ls
  | 2 => .ss
  | 3 => .bd
  | _ => .al

/-- R90, R91: the reference layout, `T[i]` with border colour `b`. There is no `T[i]` from 160 on; the window
reads 0 there (R58). -/
def layoutCode (b : BitVec 6) (i : Nat) : Byte :=
  if i < Config.tableBytes then (slotKind (tableOfIndex i) (i % Config.tableLen)).code b else 0

/-- R40: the reset contents of `T`, the reference layout with `BORDER = 0`. -/
def resetCode (i : Nat) : Byte := layoutCode 0 i

/-- R75, R76: the codes that may stand in `T`; every other value is reserved. -/
def legalCode (borderMax : BitVec 6) (c : Byte) : Bool :=
  c == 0x00 || c == 0x01 || c == 0x80 || (0x40#8 ≤ c && c ≤ borderCode borderMax)

/-- R95: who drives the output during one 2 µs tick. -/
inductive TickSource where
  /-- The code sets the output level. -/
  | level (l : Nat)
  /-- The picture generator drives the output. -/
  | picture
  deriving DecidableEq, Repr

/-- R77, R95: what a code does in its tick. Only PASS cedes the tick. -/
def tickSource (c : Byte) : TickSource := if c = CodeKind.pass.code 0 then .picture else .level (Config.level c)

/-- R100, R101: `CLASSIFY(v)`, total on all 9-bit values. -/
def classify (v : BitVec 9) : Table :=
  let n := v.toNat
  if 1 ≤ n ∧ n ≤ 2 then .ll
  else if n = 3 then .ls
  else if 4 ≤ n ∧ n ≤ 5 then .ss
  else if 6 ≤ n ∧ n ≤ 36 then .bd
  else if 37 ≤ n ∧ n ≤ 292 then .al
  else if 293 ≤ n ∧ n ≤ 309 then .bd
  else if 310 ≤ n ∧ n ≤ 312 then .ss
  else .al

/-- R102: the three classes of line. -/
inductive LineClass where
  | activeLine
  | borderLine
  | verticalSync
  deriving DecidableEq, Repr

/-- R102: the border/active region classifier. -/
def lineClass (v : BitVec 9) : LineClass :=
  match classify v with
  | .al => .activeLine
  | .bd => .borderLine
  | .ll | .ls | .ss => .verticalSync

/-- R18: `BLOCK_BASE`, a multiple of 0x1000. -/
def blockBase (p : Platform) : Word := p.blockPage ++ (0 : BitVec 12)

/-- R18: `TABLE_BASE = BLOCK_BASE + 0x100`. -/
def tableBase (p : Platform) : Word := BitVec.ofNat 32 ((blockBase p).toNat + Config.tableOffset)

/-- R103: the system address of table `k`, `(TABLE_BASE + 32 k) mod 2^32`. -/
def tableAddr (p : Platform) (k : Table) : Word :=
  BitVec.ofNat 32 ((tableBase p).toNat + Config.tableLen * k.index)

end Sys2Proof.Machine
end

