-- ==== Sys2Proof/Machine/Memory.lean ====
section
/-! DEFINITION. Reading and writing the table memory `T` (R40), and its canonical form. -/

namespace Sys2Proof.Machine

/-- `T[i]`: the listed code, or the reset contents. -/
def Memory.read (m : Memory) (i : Nat) : Byte :=
  match m with
  | [] => resetCode i
  | (j, c) :: rest => if i = j then c else Memory.read rest i

/-- Puts the cell in front, unless it says what an unlisted index reads as. -/
def Memory.cons (i : Nat) (c : Byte) (m : Memory) : Memory := if c = resetCode i then m else (i, c) :: m

/-- `T[i] <- c`, keeping the canonical form. -/
def Memory.write (m : Memory) (i : Nat) (c : Byte) : Memory :=
  match m with
  | [] => Memory.cons i c []
  | (j, d) :: rest =>
    if i < j then Memory.cons i c ((j, d) :: rest)
    else if i = j then Memory.cons i c rest
    else (j, d) :: Memory.write rest i c

/-- The canonical form: indexes of `T` strictly rising, and no entry equal to the reset contents. -/
abbrev Memory.wf (m : Memory) : Prop :=
  m.Pairwise (fun a b => a.1 < b.1) ∧ ∀ c ∈ m, c.1 < Config.tableBytes ∧ c.2 ≠ resetCode c.1

/-- R53, R132: `Σ_{j<n} T[i + j] << 8j`, the byte at the lowest index in bits [7:0]. -/
def Memory.readLE (m : Memory) (i : Nat) (n : Nat) : Word :=
  match n with
  | 0 => 0
  | n + 1 => (m.read i).setWidth 32 + (Memory.readLE m (i + 1) n <<< 8)

/-- R127: the rewrite of one slot: if the code has the border flag, it becomes `0x40 + b`. -/
def Memory.recolourSlot (b : BitVec 6) (m : Memory) (i : Nat) : Memory :=
  if borderFlag (m.read i) then m.write i (borderCode b) else m

/-- R127: the indexes of BD and AL, `32k + s` for k in {3, 4} and s in 0..31. -/
def borderTableIndexes : List Nat := List.range' (Config.tableLen * Table.bd.index) (2 * Config.tableLen)

/-- R127: the rewrite of every border-coloured slot of BD and AL. -/
def Memory.recolour (m : Memory) (b : BitVec 6) : Memory :=
  borderTableIndexes.foldl (Memory.recolourSlot b) m

end Sys2Proof.Machine
end

