-- ==== Sys2Proof/Machine/Operands.lean ====
section
/-! DEFINITION. The operand forms of a host access (R70): the table index an offset names, and what a write datum means to each register that takes one (R122, R127, R128). -/

namespace Sys2Proof.Machine

/-- R49: the window offset `0x100 + i` names `T[i]`. -/
def tableIndex (off : Offset) : Nat := off.toNat - Config.tableOffset

/-- R122: the enable request, bit 0 of the datum; the other bits are ignored. -/
def enableBit (wdata : Word) : Bool := wdata.getLsbD 0

/-- R127: the colour of an accepted border write. The whole 32-bit datum is compared with BORDER_MAX. -/
def borderColour (p : Platform) (wdata : Word) : Option (BitVec 6) :=
  if wdata.toNat ≤ p.borderMax.toNat then some (wdata.extractLsb' 0 6) else none

/-- R128: the preset a MODE write selects. The whole 32-bit datum is compared; a value above 2 selects the default. -/
def presetOfDatum (wdata : Word) : Preset :=
  if wdata.toNat = 0 then 0
  else if wdata.toNat = 1 then 1
  else if wdata.toNat = 2 then 2
  else Config.defaultPreset

end Sys2Proof.Machine
end

