-- ==== Sys2Proof/Machine/Ops.lean ====
section
/-! DEFINITION. The named operations over the state that the meanings share: what the ports present, the two channels' start and completion, the counters, the commit, the configuration writes, and the BUS_ERROR response. -/

namespace Sys2Proof.Machine

/-- The outcome of an operation. -/
abbrev Result := Host.Outcome State Fault Refusal

/-- R47: what the ports present in this step. -/
def State.present (s : State) (o : Output) : State := { s with out := o }

/-- R111, R60: a host read answers `value` and changes nothing else. -/
def answerRead (value : Word) (s : State) : Result := .next (s.present (.rdata value))

/-- R111: a host write ends with the write-complete response. -/
def answerWrite (s : State) : Result := .next (s.present .writeDone)

/-- R153, R154, R160: `raise BUS_ERROR(cause, o)`. This is the block's whole reaction to an error: it has no
trap entry, saves nothing and changes no state, and there is nothing to return from (R161). -/
def raiseBusError (cause : BusErrorCause) (off : Offset) (s : State) : Result :=
  .next (s.present (.busError cause off))

/-- R153: the cause code the error response carries. -/
def BusErrorCause.code : BusErrorCause → Nat
  | .misaligned => 1
  | .wrongSize => 2

/-- R103: emit `sync_start(addr, TABLE_LEN)`, load the sync channel's descriptor, and acknowledge SYNC_PEND. -/
def State.startSync (s : State) (addr : Word) : State :=
  { s with
    sch := some ⟨addr, Config.tableLen, 0⟩
    syncPend := false
    out := .syncStart addr Config.tableLen }

/-- R149: the sync channel goes idle and its completion is pending. -/
def State.completeSync (s : State) : State := { s with sch := none, syncPend := true, out := .quiet }

/-- R137: emit `pix_start(addr, count)`, load the picture channel's descriptor, and acknowledge PIX_PEND. -/
def State.startPix (s : State) (addr : Word) (count : Nat) : State :=
  { s with
    pch := some ⟨addr, count, 0⟩
    pixPend := false
    out := .pixStart addr count }

/-- R151: the picture channel goes idle and its completion is pending. -/
def State.completePix (s : State) : State := { s with pch := none, pixPend := true, out := .quiet }

/-- R106: the commit of the pending preset and base, if UPD is set. -/
def State.commit (s : State) : State :=
  if s.upd then { s with curPreset := s.pendPreset, curBase := s.pendBase, upd := false } else s

/-- R103: the frame boundary, `VLINE + 1 > LINES_PER_FRAME`. -/
def State.atFrameBoundary (s : State) : Bool := decide (s.vline.toNat + 1 > Config.linesPerFrame)

/-- R103: the line counter advances; at the frame boundary it wraps to 1, FRAME counts modulo 2^32, and a
pending update is committed. -/
def State.advanceLine (s : State) : State :=
  if s.atFrameBoundary then { s with vline := 1, frame := BitVec.ofNat 32 (s.frame.toNat + 1) }.commit
  else { s with vline := BitVec.ofNat 9 (s.vline.toNat + 1) }

/-- R136: `ROWADDR(r) = (CUR_BASE + r × WIDTH(CUR_PRESET)) mod 2^32`. -/
def State.rowAddr (s : State) (r : Nat) : Word := BitVec.ofNat 32 (s.curBase.toNat + r * s.curWidth)

/-- R137, R138: the row a FEED hands out: BLINE, or 0 when BLINE has reached HEIGHT. -/
def State.feedRow (s : State) : Nat := if Config.height ≤ s.bline.toNat then 0 else s.bline.toNat

/-- R122: enable, which arms both sides. Writing 0, or writing 1 while `EN = 1`, changes nothing. -/
def State.enable (s : State) (wdata : Word) : State :=
  if enableBit wdata ∧ s.en = false then { s with en := true, syncPend := true, pixPend := true } else s

/-- R127: an accepted border write. -/
def State.setBorder (s : State) (b : BitVec 6) : State := { s with border := b, tbl := s.tbl.recolour b }

/-- R128: the preset goes to both registers while `EN = 0`, and to the pending one, with UPD, while `EN = 1`. -/
def State.setPreset (s : State) (p : Preset) : State :=
  if s.en then { s with pendPreset := p, upd := true } else { s with curPreset := p, pendPreset := p }

/-- R129: the base goes to both registers while `EN = 0`, and to the pending one, with UPD, while `EN = 1`. -/
def State.setBase (s : State) (a : Word) : State :=
  if s.en then { s with pendBase := a, upd := true } else { s with curBase := a, pendBase := a }

end Sys2Proof.Machine
end

