-- ==== Sys2Proof/Machine/BusError.lean ====
section
/-! DEFINITION. The BUSERR forms (60_exceptions R153, R154, R156): the access ends with the error response and changes no block state. -/

namespace Sys2Proof.Machine

/-- BUSERR MISALIGNED RD.H (R154, cause 1). -/
def execBuserrMisalignedRdH (off : Offset) (s : State) : Result := raiseBusError .misaligned off s

/-- BUSERR MISALIGNED RD.W (R154, cause 1). -/
def execBuserrMisalignedRdW (off : Offset) (s : State) : Result := raiseBusError .misaligned off s

/-- BUSERR WRONG_SIZE RD.B (R154, cause 2). -/
def execBuserrWrongSizeRdB (off : Offset) (s : State) : Result := raiseBusError .wrongSize off s

/-- BUSERR WRONG_SIZE RD.H (R154, cause 2). -/
def execBuserrWrongSizeRdH (off : Offset) (s : State) : Result := raiseBusError .wrongSize off s

/-- BUSERR MISALIGNED WR.H (R154, cause 1). -/
def execBuserrMisalignedWrH (off : Offset) (_wdata : Word) (s : State) : Result := raiseBusError .misaligned off s

/-- BUSERR MISALIGNED WR.W (R154, cause 1). -/
def execBuserrMisalignedWrW (off : Offset) (_wdata : Word) (s : State) : Result := raiseBusError .misaligned off s

/-- BUSERR WRONG_SIZE WR.B (R154, cause 2). -/
def execBuserrWrongSizeWrB (off : Offset) (_wdata : Word) (s : State) : Result := raiseBusError .wrongSize off s

/-- BUSERR WRONG_SIZE WR.H (R154, cause 2). -/
def execBuserrWrongSizeWrH (off : Offset) (_wdata : Word) (s : State) : Result := raiseBusError .wrongSize off s

end Sys2Proof.Machine
end

