-- ==== Sys2Proof/Machine/Events.lean ====
section
/-! DEFINITION. The event operations: SYNC_DONE and PIX_DONE (60_exceptions R149, R151), DISPATCH (41_dispatch R103), FEED (43_feed R137) and RESET (70_reset R170). A named step that is not enabled is refused (R81). -/

namespace Sys2Proof.Machine

/-- EV SYNC_DONE (R149). -/
def execEvSyncDone (s : State) : Result :=
  if s.syncDoneEnabled then .next s.completeSync else .refused .syncDoneNotEnabled

/-- EV PIX_DONE (R151). -/
def execEvPixDone (s : State) : Result :=
  if s.pixDoneEnabled then .next s.completePix else .refused .pixDoneNotEnabled

/-- The sub-steps of DISPATCH (R103): the table is chosen from the value VLINE holds before the step (R104). -/
def State.dispatch (s : State) : State := (s.startSync (tableAddr s.plat (classify s.vline))).advanceLine

/-- EV DISPATCH (R103). -/
def execEvDispatch (s : State) : Result :=
  if s.dispatchEnabled then .next s.dispatch else .refused .dispatchNotEnabled

/-- The sub-steps of FEED (R137): wrap, then hand out the row (R138). -/
def State.feed (s : State) : State :=
  { s.startPix (s.rowAddr s.feedRow) s.curWidth with bline := BitVec.ofNat 9 (s.feedRow + 1) }

/-- EV FEED (R137). -/
def execEvFeed (s : State) : Result :=
  if s.feedEnabled then .next s.feed else .refused .feedNotEnabled

/-- The sub-steps of RESET (R170, R171): every register of R27 to R40, and both channels idle. The OPEN
parameters and the stimuli still to come are no registers. -/
def State.doReset (s : State) : State :=
  { s with
    vline := 1, frame := 0, bline := 0
    en := false, syncPend := false, pixPend := false
    border := 0
    curPreset := Config.defaultPreset, pendPreset := Config.defaultPreset, upd := false
    curBase := 0, pendBase := 0
    tbl := []
    sch := none, pch := none
    out := .quiet }

/-- EV RESET (R170). It is always enabled. -/
def execEvReset (s : State) : Result := .next s.doReset

end Sys2Proof.Machine
end

