-- ==== Sys2Proof/Machine/HostRead.lean ====
section
/-! DEFINITION. The register reads, RD CTRL to RD GEOM (42_host_access R112 to R121), and RD RSVR (30_encoding R82). No read has a side effect (R60). -/

namespace Sys2Proof.Machine

/-- RD CTRL (R112). -/
def execRdCtrl (s : State) : Result := answerRead s.ctrlWord s

/-- RD STATUS (R113). -/
def execRdStatus (s : State) : Result := answerRead s.statusWord s

/-- RD VLINE (R114). -/
def execRdVline (s : State) : Result := answerRead (s.vline.setWidth 32) s

/-- RD BLINE (R115). -/
def execRdBline (s : State) : Result := answerRead (s.bline.setWidth 32) s

/-- RD FRAME (R116). -/
def execRdFrame (s : State) : Result := answerRead s.frame s

/-- RD BORDER (R117). -/
def execRdBorder (s : State) : Result := answerRead (s.border.setWidth 32) s

/-- RD MODE (R118). -/
def execRdMode (s : State) : Result := answerRead s.modeWord s

/-- RD FB_BASE (R119). -/
def execRdFbBase (s : State) : Result := answerRead s.curBase s

/-- RD FB_PEND (R120). -/
def execRdFbPend (s : State) : Result := answerRead s.pendBase s

/-- RD GEOM (R121). -/
def execRdGeom (s : State) : Result := answerRead s.geomWord s

/-- RD RSVR (R82): a reserved register offset reads 0. -/
def execRdRsvr (_off : Offset) (s : State) : Result := answerRead 0 s

end Sys2Proof.Machine
end

