-- ==== Sys2Proof/Machine/HostWrite.lean ====
section
/-! DEFINITION. The register writes, WR CTRL to WR GEOM (42_host_access R122 to R131), and WR RSVR (30_encoding R83). -/

namespace Sys2Proof.Machine

/-- WR CTRL, enable (R122). -/
def execWrCtrl (wdata : Word) (s : State) : Result := answerWrite (s.enable wdata)

/-- WR STATUS: ignored (R123). -/
def execWrStatus (_wdata : Word) (s : State) : Result := answerWrite s

/-- WR VLINE: ignored (R124). -/
def execWrVline (_wdata : Word) (s : State) : Result := answerWrite s

/-- WR BLINE: ignored (R125). -/
def execWrBline (_wdata : Word) (s : State) : Result := answerWrite s

/-- WR FRAME: ignored (R126). -/
def execWrFrame (_wdata : Word) (s : State) : Result := answerWrite s

/-- WR BORDER, set_border (R127): a colour above BORDER_MAX is rejected without an error. -/
def execWrBorder (wdata : Word) (s : State) : Result :=
  match borderColour s.plat wdata with
  | some b => answerWrite (s.setBorder b)
  | none => answerWrite s

/-- WR MODE, the preset part of set_mode (R128). -/
def execWrMode (wdata : Word) (s : State) : Result := answerWrite (s.setPreset (presetOfDatum wdata))

/-- WR FB_BASE, the buffer part of set_mode (R129). -/
def execWrFbBase (wdata : Word) (s : State) : Result := answerWrite (s.setBase wdata)

/-- WR FB_PEND: ignored (R130). -/
def execWrFbPend (_wdata : Word) (s : State) : Result := answerWrite s

/-- WR GEOM: ignored (R131). -/
def execWrGeom (_wdata : Word) (s : State) : Result := answerWrite s

/-- WR RSVR: a write to a reserved register offset changes nothing and completes without error (R83). -/
def execWrRsvr (_off : Offset) (_wdata : Word) (s : State) : Result := answerWrite s

end Sys2Proof.Machine
end

