-- ==== Sys2Proof/Machine/Illegal.lean ====
section
/-! DEFINITION. The words that name no operation (30_encoding R84): a model refuses them. -/

namespace Sys2Proof.Machine

/-- ILLEGAL CLASS11 (R84). -/
def execIllegalClass11 (_body : BitVec 14) (_s : State) : Result := .refused .illegalWord

/-- ILLEGAL EV (R84). -/
def execIllegalEv (_body : BitVec 14) (_s : State) : Result := .refused .illegalWord

/-- ILLEGAL SZ11 (R84). -/
def execIllegalSz11 (_write : Bool) (_off : Offset) (_s : State) : Result := .refused .illegalWord

end Sys2Proof.Machine
end

