-- ==== Sys2Proof/Machine/Window.lean ====
section
/-! DEFINITION. The table window, RD TBL and WR TBL (42_host_access R132, R133), and the reserved region, RD RSV and WR RSV (R134, R135), in their three sizes. -/

namespace Sys2Proof.Machine

/-- RD TBL of `n` bytes (R132, R53). -/
def readTable (n : AccessSize) (off : Offset) (s : State) : Result :=
  answerRead (s.tbl.readLE (tableIndex off) n.bytes) s

/-- RD.B TBL (R132). -/
def execRdBTbl (off : Offset) (s : State) : Result := readTable .byte off s

/-- RD.H TBL (R132). -/
def execRdHTbl (off : Offset) (s : State) : Result := readTable .half off s

/-- RD.W TBL (R132). -/
def execRdWTbl (off : Offset) (s : State) : Result := readTable .word off s

/-- WR.B TBL: the table window is read-only to the host (R133). -/
def execWrBTbl (_off : Offset) (_wdata : Word) (s : State) : Result := answerWrite s

/-- WR.H TBL (R133). -/
def execWrHTbl (_off : Offset) (_wdata : Word) (s : State) : Result := answerWrite s

/-- WR.W TBL (R133). -/
def execWrWTbl (_off : Offset) (_wdata : Word) (s : State) : Result := answerWrite s

/-- RD.B RSV: the reserved region reads 0 (R134). -/
def execRdBRsv (_off : Offset) (s : State) : Result := answerRead 0 s

/-- RD.H RSV (R134). -/
def execRdHRsv (_off : Offset) (s : State) : Result := answerRead 0 s

/-- RD.W RSV (R134). -/
def execRdWRsv (_off : Offset) (s : State) : Result := answerRead 0 s

/-- WR.B RSV: ignored (R135). -/
def execWrBRsv (_off : Offset) (_wdata : Word) (s : State) : Result := answerWrite s

/-- WR.H RSV (R135). -/
def execWrHRsv (_off : Offset) (_wdata : Word) (s : State) : Result := answerWrite s

/-- WR.W RSV (R135). -/
def execWrWRsv (_off : Offset) (_wdata : Word) (s : State) : Result := answerWrite s

end Sys2Proof.Machine
end

