-- ==== Sys2Proof/Machine/Dispatch.lean ====
section
/-! DEFINITION. The dispatch of an operation to its meaning: one arm per constructor of Instr. -/

namespace Sys2Proof.Machine

/-- The meaning of an operation. -/
def exec (i : Instr) (s : State) : Host.Outcome State Fault Refusal :=
  match i with
  | .rdCtrl => Sys2Proof.Machine.execRdCtrl s
  | .rdStatus => Sys2Proof.Machine.execRdStatus s
  | .rdVline => Sys2Proof.Machine.execRdVline s
  | .rdBline => Sys2Proof.Machine.execRdBline s
  | .rdFrame => Sys2Proof.Machine.execRdFrame s
  | .rdBorder => Sys2Proof.Machine.execRdBorder s
  | .rdMode => Sys2Proof.Machine.execRdMode s
  | .rdFbBase => Sys2Proof.Machine.execRdFbBase s
  | .rdFbPend => Sys2Proof.Machine.execRdFbPend s
  | .rdGeom => Sys2Proof.Machine.execRdGeom s
  | .wrCtrl wdata => Sys2Proof.Machine.execWrCtrl wdata s
  | .wrStatus wdata => Sys2Proof.Machine.execWrStatus wdata s
  | .wrVline wdata => Sys2Proof.Machine.execWrVline wdata s
  | .wrBline wdata => Sys2Proof.Machine.execWrBline wdata s
  | .wrFrame wdata => Sys2Proof.Machine.execWrFrame wdata s
  | .wrBorder wdata => Sys2Proof.Machine.execWrBorder wdata s
  | .wrMode wdata => Sys2Proof.Machine.execWrMode wdata s
  | .wrFbBase wdata => Sys2Proof.Machine.execWrFbBase wdata s
  | .wrFbPend wdata => Sys2Proof.Machine.execWrFbPend wdata s
  | .wrGeom wdata => Sys2Proof.Machine.execWrGeom wdata s
  | .rdRsvr off => Sys2Proof.Machine.execRdRsvr off s
  | .wrRsvr off wdata => Sys2Proof.Machine.execWrRsvr off wdata s
  | .rdBTbl off => Sys2Proof.Machine.execRdBTbl off s
  | .rdHTbl off => Sys2Proof.Machine.execRdHTbl off s
  | .rdWTbl off => Sys2Proof.Machine.execRdWTbl off s
  | .wrBTbl off wdata => Sys2Proof.Machine.execWrBTbl off wdata s
  | .wrHTbl off wdata => Sys2Proof.Machine.execWrHTbl off wdata s
  | .wrWTbl off wdata => Sys2Proof.Machine.execWrWTbl off wdata s
  | .rdBRsv off => Sys2Proof.Machine.execRdBRsv off s
  | .rdHRsv off => Sys2Proof.Machine.execRdHRsv off s
  | .rdWRsv off => Sys2Proof.Machine.execRdWRsv off s
  | .wrBRsv off wdata => Sys2Proof.Machine.execWrBRsv off wdata s
  | .wrHRsv off wdata => Sys2Proof.Machine.execWrHRsv off wdata s
  | .wrWRsv off wdata => Sys2Proof.Machine.execWrWRsv off wdata s
  | .buserrMisalignedRdH off => Sys2Proof.Machine.execBuserrMisalignedRdH off s
  | .buserrMisalignedRdW off => Sys2Proof.Machine.execBuserrMisalignedRdW off s
  | .buserrWrongSizeRdB off => Sys2Proof.Machine.execBuserrWrongSizeRdB off s
  | .buserrWrongSizeRdH off => Sys2Proof.Machine.execBuserrWrongSizeRdH off s
  | .buserrMisalignedWrH off wdata => Sys2Proof.Machine.execBuserrMisalignedWrH off wdata s
  | .buserrMisalignedWrW off wdata => Sys2Proof.Machine.execBuserrMisalignedWrW off wdata s
  | .buserrWrongSizeWrB off wdata => Sys2Proof.Machine.execBuserrWrongSizeWrB off wdata s
  | .buserrWrongSizeWrH off wdata => Sys2Proof.Machine.execBuserrWrongSizeWrH off wdata s
  | .evSyncDone => Sys2Proof.Machine.execEvSyncDone s
  | .evPixDone => Sys2Proof.Machine.execEvPixDone s
  | .evDispatch => Sys2Proof.Machine.execEvDispatch s
  | .evFeed => Sys2Proof.Machine.execEvFeed s
  | .evReset => Sys2Proof.Machine.execEvReset s
  | .illegalClass11 body => Sys2Proof.Machine.execIllegalClass11 body s
  | .illegalEv body => Sys2Proof.Machine.execIllegalEv body s
  | .illegalSz11 write off => Sys2Proof.Machine.execIllegalSz11 write off s

end Sys2Proof.Machine
end

