-- ==== Sys2Proof/Machine/Take.lean ====
section
/-! DEFINITION. What one stimulus does (R8, R23): an operation word runs the operation it decodes to, and a channel's element read reads one element (R61, R63, R148, R150). Beside it, the block's own step when nothing is asked of it (R80, R157, R158). -/

namespace Sys2Proof.Machine

/-- The system address of the next element of a transfer: the elements go in ascending address order (R54, R55). -/
def Transfer.nextAddr (t : Transfer) : Word := BitVec.ofNat 32 (t.addr.toNat + t.done)

/-- R43: one more element has been read. -/
def Transfer.advance (t : Transfer) : Transfer := { t with done := t.done + 1 }

/-- The block window offset of a system address, as a distance above BLOCK_BASE (R48). -/
def windowOffset (p : Platform) (a : Word) : Nat := (a - blockBase p).toNat

/-- The next element of a channel's transfer, if a read of it is a step now: this model steps element reads, and the
transfer in flight has an element left (R148, R150). -/
def nextElement (channel : Channel) (x : Option Transfer) (stepsElements : Bool) : Except Refusal Transfer :=
  if stepsElements then
    match x with
    | none => .error (.elementReadNotEnabled channel)
    | some t => if t.done < t.count then .ok t else .error (.elementReadNotEnabled channel)
  else .error .elementsNotStepped

/-- R61, R148: the sync channel reads its next element as a 1-byte read of the table window, and gets `T` as
it is at this moment. -/
def syncElementRead (s : State) : Result :=
  match nextElement .sync s.sch s.stepsElements with
  | .error r => .refused r
  | .ok t =>
    if 0x100 ≤ windowOffset s.plat t.nextAddr ∧ windowOffset s.plat t.nextAddr ≤ 0x19F then
      .next { s with
        sch := some t.advance
        out := .syncCode (s.tbl.read (windowOffset s.plat t.nextAddr - Config.tableOffset)) }
    else .refused .elementOutsideTables

/-- R63, R150: the picture channel reads its next element from system memory, which is outside the block and
answers any value. -/
def pixElementRead (value : Byte) (s : State) : Result :=
  match nextElement .picture s.pch s.stepsElements with
  | .error r => .refused r
  | .ok t => .next { s with pch := some t.advance, out := .pixel t.nextAddr value }

/-- What one stimulus does. -/
def take (r : Stimulus) (s : State) : Result :=
  match r with
  | .access op wdata => exec (decode ⟨op, wdata⟩) s
  | .syncRead => syncElementRead s
  | .pixRead value => pixElementRead value s

/-- The block's own step when no stimulus is waiting: FEED if it is enabled, else DISPATCH if it is enabled
(R80, R157, in the order of R158), else the state is held (R168; notes/assumptions/4.md). -/
def ownStep (s : State) : Result :=
  if s.feedEnabled then execEvFeed s
  else if s.dispatchEnabled then execEvDispatch s
  else .next (s.present .quiet)

/-- The stimuli of a list, taken one after another. -/
def runStimuli : List Stimulus → State → Result
  | [], s => .next s
  | r :: rest, s =>
    match take r s with
    | .next t => runStimuli rest t
    | .fault f => .fault f
    | .refused f => .refused f

/-- The stimulus that carries an operation's word (R69). -/
def stimulusOf (i : Instr) : Stimulus := .access (encode i).op (encode i).wdata

end Sys2Proof.Machine
end

