-- ==== Sys2Proof/Machine/Step.lean ====
section
/-! DEFINITION. One step of the machine: the next stimulus is taken, or, where none is waiting, the block steps of its own accord. -/

namespace Sys2Proof.Machine

/-- One step (R23). The block fetches no instructions (R4, R26): its operations arrive as stimuli. -/
def step (s : State) : Host.Outcome State Fault Refusal :=
  match s.inputs with
  | [] => ownStep s
  | r :: rest => take r { s with inputs := rest }

/-- The state whose very next step takes the operation word of the table word `w` (`accessOfBits`). -/
def State.withFetchWord (s : State) (nbits w : Nat) : State :=
  { s with inputs := .access (accessOfBits nbits w).op (accessOfBits nbits w).wdata :: s.inputs }

end Sys2Proof.Machine
end

