-- ==== Sys2Proof/Machine/Cycle.lean ====
section
/-! DEFINITION. The order of the steps that fall in one clock cycle (60_exceptions R158, R23, 92 D10). -/

namespace Sys2Proof.Machine

/-- What falls in one clock cycle (R158). The order among the host reads, and among the host writes, is the
bus's, and free (R166). -/
structure Cycle where
  hostReads  : List OpWord
  feed       : Bool
  dispatch   : Bool
  hostWrites : List Access
  syncDone   : Bool
  pixDone    : Bool
  reset      : Bool
  deriving DecidableEq, Repr

/-- One event of a cycle, if it falls in it. -/
def eventIf (b : Bool) (i : Instr) : List Stimulus := if b then [stimulusOf i] else []

/-- R158: the steps of one cycle, one at a time: host reads, FEED, DISPATCH, host writes, SYNC_DONE and
PIX_DONE; RESET overrides all of them. -/
def Cycle.stimuli (c : Cycle) : List Stimulus :=
  if c.reset then [stimulusOf .evReset]
  else
    c.hostReads.map (fun op => Stimulus.access op 0)
      ++ eventIf c.feed .evFeed
      ++ eventIf c.dispatch .evDispatch
      ++ c.hostWrites.map (fun a => Stimulus.access a.op a.wdata)
      ++ eventIf c.syncDone .evSyncDone
      ++ eventIf c.pixDone .evPixDone

/-- The state with one cycle's steps put before the stimuli still to come. -/
def State.withCycle (s : State) (c : Cycle) : State := { s with inputs := c.stimuli ++ s.inputs }

end Sys2Proof.Machine
end

