-- ==== Sys2Proof/Machine/Pacing.lean ====
section
/-! DEFINITION. The pseudo-operations (30_encoding R88) and the host's polling loops (44_frame_pacing R143 to R147). Every other agent may step before each read of a loop: `gaps` lists, read by read, what steps before it. -/

namespace Sys2Proof.Machine

/-- R88: `enable`. -/
def pseudoEnable : List Stimulus := [stimulusOf (.wrCtrl 1)]

/-- R88: `set_border <c>`. -/
def pseudoSetBorder (c : Word) : List Stimulus := [stimulusOf (.wrBorder c)]

/-- R88: `set_base <a>`. -/
def pseudoSetBase (a : Word) : List Stimulus := [stimulusOf (.wrFbBase a)]

/-- R88: the write of `set_mode <p>`. -/
def setModeWrite (p : Word) : List Stimulus := [stimulusOf (.wrMode p)]

/-- One line on the sync side, with `reads` element reads of the sync channel between the start and the completion. -/
def lineSteps (reads : Nat) : List Stimulus :=
  stimulusOf .evDispatch :: (List.replicate reads .syncRead ++ [stimulusOf .evSyncDone])

/-- R88: `line`, one line on the sync side, as a trace names it that steps no element reads. -/
def pseudoLine : List Stimulus := lineSteps 0

/-- One row on the picture side, with the pixels that the element reads between the start and the completion get. -/
def rowSteps (pixels : List Byte) : List Stimulus :=
  stimulusOf .evFeed :: (pixels.map .pixRead ++ [stimulusOf .evPixDone])

/-- R88: `row`, one row on the picture side, as a trace names it that steps no element reads. -/
def pseudoRow : List Stimulus := rowSteps []

/-- R148, R149: the element reads that a sync transfer takes in this model. -/
def State.lineReads (s : State) : Nat := if s.stepsElements then Config.tableLen else 0

/-- R149, R150: the element reads that a picture transfer takes in this model. -/
def State.rowReads (s : State) : Nat := if s.stepsElements then s.curWidth else 0

/-- R88: `repeat <n> { body }`. -/
def pseudoRepeat (n : Nat) (body : List Stimulus) : List Stimulus := (List.replicate n body).flatten

/-- How far a host has come with a pseudo-operation that may poll. -/
inductive PollResult where
  /-- The loop has ended: the last value read and the state after that read. -/
  | returned (value : Word) (s : State)
  /-- The loop is still polling after all the gaps given. -/
  | waiting (s : State)
  /-- The pseudo-operation has ended without polling (R88, `set_mode` while `EN = 0`). -/
  | notPolled (s : State)
  /-- A read got no data, or a step of a gap is no step of the machine. -/
  | stopped
  deriving DecidableEq, Repr

/-- The value a host read gets, with the state after it. -/
def hostRead (i : Instr) (s : State) : Option (Word × State) :=
  match take (stimulusOf i) s with
  | .next t =>
    match t.out with
    | .rdata v => some (v, t)
    | _ => none
  | _ => none

/-- R88: `poll <reg>, ...`: read until the value is accepted. Before each read the steps of one gap come. -/
def poll (reg : Instr) (accept : Word → Bool) : List (List Stimulus) → State → PollResult
  | [], s => .waiting s
  | gap :: gaps, s =>
    match runStimuli gap s with
    | .next t =>
      match hostRead reg t with
      | some (v, u) => if accept v then .returned v u else poll reg accept gaps u
      | none => .stopped
    | _ => .stopped

/-- R88, R143: `wait_frame`: read FRAME once, then read it until it differs. -/
def waitFrame (gaps : List (List Stimulus)) (s : State) : PollResult :=
  match hostRead .rdFrame s with
  | some (f0, t) => poll .rdFrame (fun f => f != f0) gaps t
  | none => .stopped

/-- The steps that `wait_frame` and the other agents take, in order, for the gaps before its second and later reads. -/
def waitFrameSteps (gaps : List (List Stimulus)) : List Stimulus :=
  stimulusOf .rdFrame :: gaps.flatMap (fun gap => gap ++ [stimulusOf .rdFrame])

/-- R88, R146: `poll STATUS, 0x4, 0`, the wait of `set_mode`. -/
def waitCommit (gaps : List (List Stimulus)) (s : State) : PollResult :=
  poll .rdStatus (fun v => v &&& 0x4 == 0) gaps s

/-- R88: `set_mode <p>`: `wr.w MODE, <p>`, and then, if `EN = 1`, `poll STATUS, 0x4, 0`. -/
def pseudoSetMode (p : Word) (gaps : List (List Stimulus)) (s : State) : PollResult :=
  match runStimuli (setModeWrite p) s with
  | .next t => if t.en then waitCommit gaps t else .notPolled t
  | _ => .stopped

end Sys2Proof.Machine
end

