-- ==== Sys2Proof/Safety.lean ====
section
/-! DEFINITION. What counts as a good state and a good run, in the terms the statements use: the invariants of 10_state R39, R45, R46, the frame predicates, and the fairness premise of 60_exceptions R159. -/

namespace Sys2Proof.Machine

/-! The invariant. -/

/-- R46: `1 ≤ VLINE ≤ 312`. -/
abbrev State.VlineLegal (s : State) : Prop := 1 ≤ s.vline.toNat ∧ s.vline.toNat ≤ Config.linesPerFrame

/-- R46: `0 ≤ BLINE ≤ HEIGHT`. -/
abbrev State.BlineLegal (s : State) : Prop := s.bline.toNat ≤ Config.height

/-- R46: `BORDER ≤ BORDER_MAX`. -/
abbrev State.BorderLegal (s : State) : Prop := s.border.toNat ≤ s.plat.borderMax.toNat

/-- R46, R90: the table memory is in its canonical form, and every byte of `T` is the layout's code at that
slot with the active border colour. -/
abbrev State.TablesShowBorder (s : State) : Prop :=
  s.tbl.wf ∧ ∀ i < Config.tableBytes, s.tbl.read i = layoutCode s.border i

/-- R39: `UPD = 0` implies that the pending pair equals the current pair. -/
abbrev State.PendingAgrees (s : State) : Prop :=
  s.upd = false → s.pendPreset = s.curPreset ∧ s.pendBase = s.curBase

/-- R45: once `EN = 1`, exactly one of pending and busy is 1 on each side. While `EN = 0` both sides are idle,
nothing is pending, and no update waits (R30 to R32, R38, R172). -/
abbrev State.TokensLegal (s : State) : Prop :=
  (s.en = true → s.syncPend = !s.schBusy ∧ s.pixPend = !s.pchBusy) ∧
  (s.en = false → s.syncPend = false ∧ s.pixPend = false ∧ s.schBusy = false ∧ s.pchBusy = false ∧ s.upd = false)

/-- R47, R103, R148: a sync transfer in flight reads one of the five tables, and has read at most its 32 codes. -/
abbrev State.SyncTransferLegal (s : State) : Prop :=
  ∀ t ∈ s.sch, t.count = Config.tableLen ∧ t.done ≤ t.count ∧ t.addr ∈ Table.all.map (tableAddr s.plat)

/-- R47, R137, R150: a picture transfer in flight has a preset's width, and has read at most that many bytes. -/
abbrev State.PixTransferLegal (s : State) : Prop :=
  ∀ t ∈ s.pch, (∃ p : Preset, t.count = Config.width p) ∧ t.done ≤ t.count

/-- The invariants of 10_state together. The presets' range is in their type (R34, R36). -/
abbrev State.Inv (s : State) : Prop :=
  s.VlineLegal ∧ s.BlineLegal ∧ s.BorderLegal ∧ s.TablesShowBorder ∧ s.PendingAgrees ∧ s.TokensLegal
    ∧ s.SyncTransferLegal ∧ s.PixTransferLegal

/-! Frame predicates. -/

/-- Two states that may differ only in what the ports presented last. -/
abbrev SameButOutput (s t : State) : Prop := t = { s with out := t.out }

/-- An operation word of class `cls` (R69). -/
abbrev IsHostWord (op : OpWord) : Prop := (opClass op = 0b00 ∨ opClass op = 0b01) ∧ opSz op ≠ 0b11

/-- What a stimulus is as an operation, if it is one. -/
def Stimulus.instr : Stimulus → Option Instr
  | .access op wdata => some (decode ⟨op, wdata⟩)
  | .syncRead => none
  | .pixRead _ => none

/-- A stimulus that is RESET. -/
def Stimulus.isReset (r : Stimulus) : Bool := r.instr == some .evReset

/-- A stimulus that is DISPATCH. -/
def Stimulus.isDispatch (r : Stimulus) : Bool := r.instr == some .evDispatch

/-- A stimulus that is a write of CTRL. -/
def Stimulus.writesCtrl (r : Stimulus) : Bool :=
  match r.instr with
  | some (.wrCtrl _) => true
  | _ => false

/-- A stimulus that is a write of MODE or FB_BASE. -/
def Stimulus.writesConfig (r : Stimulus) : Bool :=
  match r.instr with
  | some (.wrMode _) => true
  | some (.wrFbBase _) => true
  | _ => false

/-- R146: the base that is pending after a list of stimuli without RESET: the last FB_BASE written in it, or the one
before it. -/
def lastBase (base : Word) : List Stimulus → Word
  | [] => base
  | r :: rest =>
    match r.instr with
    | some (.wrFbBase a) => lastBase a rest
    | _ => lastBase base rest

/-- R146: the preset that is pending after a list of stimuli without RESET: the one the last MODE write in it selects
(R128), or the one before it. -/
def lastPreset (preset : Preset) : List Stimulus → Preset
  | [] => preset
  | r :: rest =>
    match r.instr with
    | some (.wrMode d) => lastPreset (presetOfDatum d) rest
    | _ => lastPreset preset rest

/-! Runs, and fairness as a premise (R159). -/

/-- An infinite run: for every moment a state, the stimulus taken in it, the host master that takes it if one does,
and each host master's next access, if it has one to make (R166; notes/assumptions/20.md). -/
structure Run where
  state : Nat → State
  label : Nat → Stimulus
  master : Nat → Option Nat
  nextAccess : Nat → Nat → Option Access

/-- Each moment's stimulus leads to the next moment's state. A host word is taken by a host master, a host master's
step is the access it had to make next, and an access stays a master's next one until that master steps. -/
def Run.Follows (ρ : Run) : Prop :=
  (∀ n, take (ρ.label n) (ρ.state n) = .next (ρ.state (n + 1))) ∧
  (∀ n op d, ρ.label n = .access op d → IsHostWord op → ∃ m, ρ.master n = some m) ∧
  (∀ n m, ρ.master n = some m → ∃ a, ρ.nextAccess n m = some a ∧ IsHostWord a.op ∧ ρ.label n = .access a.op a.wdata) ∧
  (∀ n m a, ρ.nextAccess n m = some a → ρ.master n ≠ some m → ρ.nextAccess (n + 1) m = some a)

/-- R159: a DISPATCH that stays enabled eventually steps. -/
def Run.FairDispatch (ρ : Run) : Prop :=
  ∀ n, (∀ m, n ≤ m → (ρ.state m).dispatchEnabled = true) → ∃ m, n ≤ m ∧ (ρ.label m).instr = some .evDispatch

/-- R159: a FEED that stays enabled eventually steps. -/
def Run.FairFeed (ρ : Run) : Prop :=
  ∀ n, (∀ m, n ≤ m → (ρ.state m).feedEnabled = true) → ∃ m, n ≤ m ∧ (ρ.label m).instr = some .evFeed

/-- R159: a started sync transfer eventually completes. -/
def Run.FairSync (ρ : Run) : Prop :=
  ∀ n, (ρ.state n).schBusy = true → ∃ m, n ≤ m ∧ (ρ.label m).instr = some .evSyncDone

/-- R159: a started picture transfer eventually completes. -/
def Run.FairPix (ρ : Run) : Prop :=
  ∀ n, (ρ.state n).pchBusy = true → ∃ m, n ≤ m ∧ (ρ.label m).instr = some .evPixDone

/-- R159: each host master's next access eventually steps. -/
def Run.FairHost (ρ : Run) : Prop :=
  ∀ n m a, ρ.nextAccess n m = some a → ∃ k, n ≤ k ∧ ρ.master k = some m

/-- No RESET falls in the run. -/
def Run.NoReset (ρ : Run) : Prop := ∀ n, (ρ.label n).isReset = false

/-- R143: at moment `n` the host master `m` reads FRAME. -/
def Run.ReadsFrame (ρ : Run) (m n : Nat) : Prop := ρ.master n = some m ∧ ρ.label n = stimulusOf .rdFrame

/-- R143: from moment `k` on the host master `m` performs `wait_frame`: it reads FRAME at `k`, and its next access is
again a read of FRAME as long as its reads since then have shown the same value. -/
def Run.WaitsFrame (ρ : Run) (m k : Nat) : Prop :=
  ρ.ReadsFrame m k ∧
  ∀ n, k < n → (∀ j, k < j → j < n → ρ.master j = some m → (ρ.state j).frame = (ρ.state k).frame) →
    ρ.nextAccess n m = some (encode .rdFrame)

/-- The frame boundaries before moment `n`: DISPATCH steps that find VLINE = 312 (R110). -/
def Run.boundaries (ρ : Run) : Nat → Nat
  | 0 => 0
  | n + 1 => ρ.boundaries n + if (ρ.label n).isDispatch ∧ (ρ.state n).vline = 312 then 1 else 0

/-- Between one step of the host master `m` and its next, FRAME does not go all the way round its 2^32 values. The
model keeps the wrap (R20), so a poll that compares for change could otherwise miss it (notes/assumptions/19.md). -/
def Run.NoFrameWrapBetweenReads (ρ : Run) (m : Nat) : Prop :=
  ∀ n k, n < k → ρ.master n = some m → ρ.master k = some m → (∀ j, n < j → j < k → ρ.master j ≠ some m) →
    ρ.boundaries k < ρ.boundaries n + 2 ^ 32

end Sys2Proof.Machine
end

