-- ==== Sys2Proof/Certificates/Slice0/Obligations.lean ====
section
/-! DEFINITION. The statements for the provers. Each docstring names the rules of spec/ it formalises; a part that rests on the model's own choice names its log entry. -/

open Sys2Proof Sys2Proof.Machine

/-! Encoding. -/

/-- R69 to R71, R78 to R80, R84: the decoder reads back every operand of every well-formed operation. -/
def Obligations.DecodeOfEncodeGivesTheOperation : Prop :=
  ∀ i : Instr, i.WellFormed → decode (encode i) = i

/-- R69: no bit of an operation word is dropped by decoding, and no bit of a host write's datum. -/
def Obligations.EncodeOfDecodeGivesTheWord : Prop :=
  ∀ a : Access, (encode (decode a)).op = a.op ∧
    (opClass a.op = 0b01 → opSz a.op ≠ 0b11 → (encode (decode a)).wdata = a.wdata)

/-- R71: every word decodes to an operation whose operands are in the range its decode step gives. -/
def Obligations.DecodedOperationsAreWellFormed : Prop :=
  ∀ a : Access, (decode a).WellFormed

/-- 95_test_vectors L2-E: words written out from the encoding, and what they decode as. -/
def Obligations.WordsOfTheSpecDecode : Prop :=
  decode ⟨0x2008, 0⟩ = .rdVline ∧ decode ⟨0x6014, 9⟩ = .wrBorder 9 ∧ decode ⟨0x601C, 0x20000000⟩ = .wrFbBase 0x20000000 ∧
  decode ⟨0x20FC, 0⟩ = .rdRsvr 0x0FC ∧ decode ⟨0x0100, 0⟩ = .rdBTbl 0x100 ∧ decode ⟨0x1180, 0⟩ = .rdHTbl 0x180 ∧
  decode ⟨0x21A0, 0⟩ = .rdWRsv 0x1A0 ∧ decode ⟨0x1008, 0⟩ = .buserrWrongSizeRdH 0x008 ∧
  decode ⟨0x2002, 0⟩ = .buserrMisalignedRdW 0x002 ∧ decode ⟨0x10FF, 0⟩ = .buserrMisalignedRdH 0x0FF ∧
  decode ⟨0x8002, 0⟩ = .evDispatch ∧ decode ⟨0x8008, 0⟩ = .illegalEv 8 ∧ decode ⟨0x3008, 0⟩ = .illegalSz11 false 0x008 ∧
  decode ⟨0xFFFF, 0⟩ = .illegalClass11 0x3FFF

/-- R56, R57, R154: a misaligned access, or a 1- or 2-byte access to the register region, ends with BUS_ERROR,
MISALIGNED first, and changes no state. -/
def Obligations.BadHostAccessesEndInBusError : Prop :=
  ∀ (a : Access) (n : AccessSize) (s : State),
    (opClass a.op = 0b00 ∨ opClass a.op = 0b01) → sizeOfSz (opSz a.op) = some n →
    (¬ Aligned n (opOff a.op) → exec (decode a) s = .next { s with out := .busError .misaligned (opOff a.op) }) ∧
    (Aligned n (opOff a.op) → InRegisterRegion (opOff a.op) → n ≠ .word →
      exec (decode a) s = .next { s with out := .busError .wrongSize (opOff a.op) })

/-- R154: each BUSERR form answers with its cause and its offset. -/
def Obligations.BusErrorFormsAnswerTheirCause : Prop :=
  ∀ (off : Offset) (d : Word) (s : State),
    exec (.buserrMisalignedRdH off) s = .next { s with out := .busError .misaligned off } ∧
    exec (.buserrMisalignedRdW off) s = .next { s with out := .busError .misaligned off } ∧
    exec (.buserrWrongSizeRdB off) s = .next { s with out := .busError .wrongSize off } ∧
    exec (.buserrWrongSizeRdH off) s = .next { s with out := .busError .wrongSize off } ∧
    exec (.buserrMisalignedWrH off d) s = .next { s with out := .busError .misaligned off } ∧
    exec (.buserrMisalignedWrW off d) s = .next { s with out := .busError .misaligned off } ∧
    exec (.buserrWrongSizeWrB off d) s = .next { s with out := .busError .wrongSize off } ∧
    exec (.buserrWrongSizeWrH off d) s = .next { s with out := .busError .wrongSize off } ∧
    BusErrorCause.misaligned.code = 1 ∧ BusErrorCause.wrongSize.code = 2

/-- R153: nothing else raises BUS_ERROR: an operation word that gives an error response is a host word that is
misaligned (cause 1) or an aligned wrong-size register access (cause 2), and the response carries its OFF. -/
def Obligations.OnlyBadHostAccessesGetBusError : Prop :=
  ∀ (a : Access) (s t : State) (c : BusErrorCause) (o : Offset),
    exec (decode a) s = .next t → t.out = .busError c o →
    o = opOff a.op ∧ (opClass a.op = 0b00 ∨ opClass a.op = 0b01) ∧
      ∃ n, sizeOfSz (opSz a.op) = some n ∧
        ((c = .misaligned ∧ ¬ Aligned n o) ∨ (c = .wrongSize ∧ Aligned n o ∧ InRegisterRegion o ∧ n ≠ .word))

/-- R84: the words that name no operation are refused, and so are the three constructors that stand for them. -/
def Obligations.IllegalWordsAreRefused : Prop :=
  (∀ (a : Access) (s : State),
    (opClass a.op = 0b11 ∨ ((opClass a.op = 0b00 ∨ opClass a.op = 0b01) ∧ opSz a.op = 0b11) ∨
      (opClass a.op = 0b10 ∧ (a.op.extractLsb' 3 11 ≠ 0 ∨ 5 ≤ (a.op.extractLsb' 0 3).toNat))) →
    exec (decode a) s = .refused .illegalWord) ∧
  (∀ (b : BitVec 14) (w : Bool) (off : Offset) (s : State),
    exec (.illegalClass11 b) s = .refused .illegalWord ∧ exec (.illegalEv b) s = .refused .illegalWord ∧
    exec (.illegalSz11 w off) s = .refused .illegalWord)

/-- R81, R111: host words are always enabled. A read answers data or the error response and changes nothing; a
write ends with the write-complete or the error response. -/
def Obligations.HostWordsAlwaysComplete : Prop :=
  ∀ (a : Access) (s : State), IsHostWord a.op → ∃ t, exec (decode a) s = .next t ∧
    (opClass a.op = 0b00 → SameButOutput s t ∧ ((∃ v, t.out = .rdata v) ∨ ∃ c o, t.out = .busError c o)) ∧
    (opClass a.op = 0b01 → t.out = .writeDone ∨ ∃ c o, t.out = .busError c o)

/-! Host reads. -/

/-- R114 to R117, R119, R120: RD VLINE, BLINE, FRAME, BORDER, FB_BASE and FB_PEND answer the register (the narrow
ones zero-extended; FB_BASE the current base and FB_PEND the pending one) and change nothing. -/
def Obligations.PlainRegisterReadsAnswerTheRegister : Prop :=
  ∀ (d : Word) (s : State),
    (decode ⟨0x2008, d⟩ = .rdVline ∧ exec .rdVline s = .next { s with out := .rdata (BitVec.ofNat 32 s.vline.toNat) }) ∧
    (decode ⟨0x200C, d⟩ = .rdBline ∧ exec .rdBline s = .next { s with out := .rdata (BitVec.ofNat 32 s.bline.toNat) }) ∧
    (decode ⟨0x2010, d⟩ = .rdFrame ∧ exec .rdFrame s = .next { s with out := .rdata s.frame }) ∧
    (decode ⟨0x2014, d⟩ = .rdBorder ∧ exec .rdBorder s = .next { s with out := .rdata (BitVec.ofNat 32 s.border.toNat) }) ∧
    (decode ⟨0x201C, d⟩ = .rdFbBase ∧ exec .rdFbBase s = .next { s with out := .rdata s.curBase }) ∧
    (decode ⟨0x2020, d⟩ = .rdFbPend ∧ exec .rdFbPend s = .next { s with out := .rdata s.pendBase })

/-- R112, R113, R118, R121: RD CTRL answers EN, RD STATUS answers UPD, PIX_PEND and SYNC_PEND in bits 2 to 0, RD MODE
answers PEND_PRESET from bit 4 and CUR_PRESET from bit 0, RD GEOM answers HEIGHT from bit 16 and the current width
from bit 0. None changes anything. -/
def Obligations.FieldRegisterReadsAnswerTheirFields : Prop :=
  ∀ (d : Word) (s : State),
    (decode ⟨0x2000, d⟩ = .rdCtrl ∧ exec .rdCtrl s = .next { s with out := .rdata (BitVec.ofNat 32 s.en.toNat) }) ∧
    (decode ⟨0x2004, d⟩ = .rdStatus ∧ exec .rdStatus s =
      .next { s with out := .rdata (BitVec.ofNat 32 (4 * s.upd.toNat + 2 * s.pixPend.toNat + s.syncPend.toNat)) }) ∧
    (decode ⟨0x2018, d⟩ = .rdMode ∧ exec .rdMode s =
      .next { s with out := .rdata (BitVec.ofNat 32 (16 * s.pendPreset.val + s.curPreset.val)) }) ∧
    (decode ⟨0x2024, d⟩ = .rdGeom ∧ exec .rdGeom s =
      .next { s with out := .rdata (BitVec.ofNat 32 (0x10000 * 256 + Config.width s.curPreset)) })

/-- R82, R134: an aligned read of a reserved register offset (4 bytes) or of the reserved region (any size)
answers 0 and changes nothing. -/
def Obligations.ReservedSpaceReadsZero : Prop :=
  ∀ (op : OpWord) (d : Word) (s : State), opClass op = 0b00 →
    let o := opOff op
    let answer : Result := .next { s with out := .rdata 0 }
    (ReservedRegister o → opSz op = 0b10 → decode ⟨op, d⟩ = .rdRsvr o ∧ exec (.rdRsvr o) s = answer) ∧
    (InReservedRegion o → opSz op = 0b00 → decode ⟨op, d⟩ = .rdBRsv o ∧ exec (.rdBRsv o) s = answer) ∧
    (InReservedRegion o → opSz op = 0b01 → Aligned .half o → decode ⟨op, d⟩ = .rdHRsv o ∧ exec (.rdHRsv o) s = answer) ∧
    (InReservedRegion o → opSz op = 0b10 → Aligned .word o → decode ⟨op, d⟩ = .rdWRsv o ∧ exec (.rdWRsv o) s = answer)

/-- R132: a read of the table window answers `Σ_{j<n} T[o − 0x100 + j] << 8j` and changes nothing. -/
def Obligations.TableWindowReadsAreLittleEndian : Prop :=
  ∀ (op : OpWord) (d : Word) (s : State), opClass op = 0b00 → InTableWindow (opOff op) →
    (opSz op = 0b00 → decode ⟨op, d⟩ = .rdBTbl (opOff op) ∧
      exec (.rdBTbl (opOff op)) s = .next { s with out := .rdata (BitVec.ofNat 32
        (∑ j ∈ Finset.range 1, (s.tbl.read ((opOff op).toNat - 0x100 + j)).toNat * 2 ^ (8 * j))) }) ∧
    (opSz op = 0b01 → Aligned .half (opOff op) → decode ⟨op, d⟩ = .rdHTbl (opOff op) ∧
      exec (.rdHTbl (opOff op)) s = .next { s with out := .rdata (BitVec.ofNat 32
        (∑ j ∈ Finset.range 2, (s.tbl.read ((opOff op).toNat - 0x100 + j)).toNat * 2 ^ (8 * j))) }) ∧
    (opSz op = 0b10 → Aligned .word (opOff op) → decode ⟨op, d⟩ = .rdWTbl (opOff op) ∧
      exec (.rdWTbl (opOff op)) s = .next { s with out := .rdata (BitVec.ofNat 32
        (∑ j ∈ Finset.range 4, (s.tbl.read ((opOff op).toNat - 0x100 + j)).toNat * 2 ^ (8 * j))) })

/-- R60: a host access made again at once does the same again: a read answers the same value and changes
nothing, a write leaves the same state as once. That the table memory is in canonical form is an invariant
(StepKeepsTheInvariants). -/
def Obligations.HostAccessesAreIdempotent : Prop :=
  ∀ (a : Access) (s t : State), IsHostWord a.op → s.tbl.wf → exec (decode a) s = .next t →
    exec (decode a) t = .next t ∧ (opClass a.op = 0b00 → SameButOutput s t)

/-! Host writes. -/

/-- R123 to R126, R130, R131: the writes of read-only registers change nothing and complete. -/
def Obligations.ReadOnlyRegisterWritesChangeNothing : Prop :=
  ∀ (d : Word) (s : State),
    (decode ⟨0x6004, d⟩ = .wrStatus d ∧ exec (.wrStatus d) s = .next { s with out := .writeDone }) ∧
    (decode ⟨0x6008, d⟩ = .wrVline d ∧ exec (.wrVline d) s = .next { s with out := .writeDone }) ∧
    (decode ⟨0x600C, d⟩ = .wrBline d ∧ exec (.wrBline d) s = .next { s with out := .writeDone }) ∧
    (decode ⟨0x6010, d⟩ = .wrFrame d ∧ exec (.wrFrame d) s = .next { s with out := .writeDone }) ∧
    (decode ⟨0x6020, d⟩ = .wrFbPend d ∧ exec (.wrFbPend d) s = .next { s with out := .writeDone }) ∧
    (decode ⟨0x6024, d⟩ = .wrGeom d ∧ exec (.wrGeom d) s = .next { s with out := .writeDone })

/-- R83, R133, R135: an aligned write of a reserved register offset (4 bytes), of the table window or of the
reserved region (any size) changes nothing and completes without error. -/
def Obligations.WindowWritesChangeNothing : Prop :=
  ∀ (op : OpWord) (d : Word) (s : State), opClass op = 0b01 →
    let o := opOff op
    let answer : Result := .next { s with out := .writeDone }
    (ReservedRegister o → opSz op = 0b10 → decode ⟨op, d⟩ = .wrRsvr o d ∧ exec (.wrRsvr o d) s = answer) ∧
    (InTableWindow o → opSz op = 0b00 → decode ⟨op, d⟩ = .wrBTbl o d ∧ exec (.wrBTbl o d) s = answer) ∧
    (InTableWindow o → opSz op = 0b01 → Aligned .half o → decode ⟨op, d⟩ = .wrHTbl o d ∧ exec (.wrHTbl o d) s = answer) ∧
    (InTableWindow o → opSz op = 0b10 → Aligned .word o → decode ⟨op, d⟩ = .wrWTbl o d ∧ exec (.wrWTbl o d) s = answer) ∧
    (InReservedRegion o → opSz op = 0b00 → decode ⟨op, d⟩ = .wrBRsv o d ∧ exec (.wrBRsv o d) s = answer) ∧
    (InReservedRegion o → opSz op = 0b01 → Aligned .half o → decode ⟨op, d⟩ = .wrHRsv o d ∧ exec (.wrHRsv o d) s = answer) ∧
    (InReservedRegion o → opSz op = 0b10 → Aligned .word o → decode ⟨op, d⟩ = .wrWRsv o d ∧ exec (.wrWRsv o d) s = answer)

/-- R122: writing 1 to CTRL bit 0 while `EN = 0` sets EN and both pending bits; every other write changes nothing. -/
def Obligations.CtrlWriteEnablesOnce : Prop :=
  ∀ (d : Word) (s : State), decode ⟨0x6000, d⟩ = .wrCtrl d ∧
    (d.getLsbD 0 = true → s.en = false →
      exec (.wrCtrl d) s = .next { s with en := true, syncPend := true, pixPend := true, out := .writeDone }) ∧
    (d.getLsbD 0 = false ∨ s.en = true → exec (.wrCtrl d) s = .next { s with out := .writeDone })

/-- R127: a colour up to BORDER_MAX becomes BORDER, every flagged slot of BD and AL becomes `0x40 + c` and every
other byte of `T` and every other register is unchanged; a larger datum changes nothing. That the table memory is in
canonical form is an invariant (StepKeepsTheInvariants). -/
def Obligations.BorderWriteRecoloursFlaggedSlots : Prop :=
  ∀ (d : Word) (s : State), decode ⟨0x6014, d⟩ = .wrBorder d ∧
    (s.tbl.wf → d.toNat ≤ s.plat.borderMax.toNat → ∃ t, exec (.wrBorder d) s = .next t ∧
      t = { s with border := BitVec.ofNat 6 d.toNat, tbl := t.tbl, out := .writeDone } ∧
      ∀ i < 160, t.tbl.read i =
        if 96 ≤ i ∧ (s.tbl.read i).getLsbD 6 = true then BitVec.ofNat 8 (0x40 + d.toNat) else s.tbl.read i) ∧
    (s.plat.borderMax.toNat < d.toNat → exec (.wrBorder d) s = .next { s with out := .writeDone })

/-- R33, R90: where the tables show the active colour, they show the new colour after an accepted border write,
in canonical form. -/
def Obligations.BorderWriteKeepsTheLayout : Prop :=
  ∀ (d : Word) (s t : State), s.TablesShowBorder → exec (.wrBorder d) s = .next t → t.TablesShowBorder

/-- R128: the datum selects preset 0, 1 or 2, or the default when it is above 2. While `EN = 0` the preset goes
to both registers at once; while `EN = 1` it goes to the pending one and UPD is set. -/
def Obligations.ModeWriteSelectsThePreset : Prop :=
  ∀ (d : Word) (s : State), decode ⟨0x6018, d⟩ = .wrMode d ∧
    ∃ p : Preset, p.val = (if d.toNat ≤ 2 then d.toNat else 0) ∧
      (s.en = false → exec (.wrMode d) s = .next { s with curPreset := p, pendPreset := p, out := .writeDone }) ∧
      (s.en = true → exec (.wrMode d) s = .next { s with pendPreset := p, upd := true, out := .writeDone })

/-- R129: while `EN = 0` the base goes to both registers at once; while `EN = 1` it goes to the pending one and
UPD is set. -/
def Obligations.BaseWriteSelectsTheBase : Prop :=
  ∀ (d : Word) (s : State), decode ⟨0x601C, d⟩ = .wrFbBase d ∧
    (s.en = false → exec (.wrFbBase d) s = .next { s with curBase := d, pendBase := d, out := .writeDone }) ∧
    (s.en = true → exec (.wrFbBase d) s = .next { s with pendBase := d, upd := true, out := .writeDone })

/-! Dispatch. -/

/-- R103, R104, R107: an enabled DISPATCH starts the table of the line VLINE holds, acknowledges, advances the
line, and at the frame boundary wraps, counts the frame and commits a pending update. Nothing else changes. -/
def Obligations.DispatchStartsTheLineAndAdvances : Prop :=
  ∀ (d : Word) (s : State), decode ⟨0x8002, d⟩ = .evDispatch ∧ (s.en = true → s.syncPend = true →
    let a : Word := BitVec.ofNat 32 ((tableBase s.plat).toNat + 32 * (classify s.vline).index)
    (s.vline.toNat + 1 ≤ 312 → exec .evDispatch s = .next { s with
      sch := some ⟨a, 32, 0⟩, syncPend := false, out := .syncStart a 32, vline := BitVec.ofNat 9 (s.vline.toNat + 1) }) ∧
    (312 < s.vline.toNat + 1 → s.upd = false → exec .evDispatch s = .next { s with
      sch := some ⟨a, 32, 0⟩, syncPend := false, out := .syncStart a 32, vline := 1, frame := s.frame + 1 }) ∧
    (312 < s.vline.toNat + 1 → s.upd = true → exec .evDispatch s = .next { s with
      sch := some ⟨a, 32, 0⟩, syncPend := false, out := .syncStart a 32, vline := 1, frame := s.frame + 1,
      curPreset := s.pendPreset, curBase := s.pendBase, upd := false }))

/-- R100, R101: CLASSIFY by the decision table, AL for every other value. -/
def Obligations.ClassifyFollowsTheDecisionTable : Prop :=
  ∀ v : BitVec 9,
    (1 ≤ v.toNat ∧ v.toNat ≤ 2 → (classify v).index = 0) ∧
    (v.toNat = 3 → (classify v).index = 1) ∧
    (4 ≤ v.toNat ∧ v.toNat ≤ 5 → (classify v).index = 2) ∧
    (6 ≤ v.toNat ∧ v.toNat ≤ 36 → (classify v).index = 3) ∧
    (37 ≤ v.toNat ∧ v.toNat ≤ 292 → (classify v).index = 4) ∧
    (293 ≤ v.toNat ∧ v.toNat ≤ 309 → (classify v).index = 3) ∧
    (310 ≤ v.toNat ∧ v.toNat ≤ 312 → (classify v).index = 2) ∧
    (v.toNat = 0 ∨ 313 ≤ v.toNat → (classify v).index = 4)

/-- R98: the tables of a frame's 312 lines, in order. -/
def Obligations.FrameSendsTheTablesInOrder : Prop :=
  (List.range 312).map (fun n => classify (BitVec.ofNat 9 (n + 1))) =
    List.replicate 2 .ll ++ List.replicate 1 .ls ++ List.replicate 2 .ss ++ List.replicate 31 .bd
      ++ List.replicate 256 .al ++ List.replicate 17 .bd ++ List.replicate 3 .ss

/-- R99: counted in half lines, the lines 310 to 312 and 1 to 5 give 6 short, 5 long and 5 short pulses. -/
def Obligations.VerticalSyncPulsesAcrossTheBoundary : Prop :=
  ([310, 311, 312, 1, 2, 3, 4, 5] : List (BitVec 9)).flatMap (fun v => [0, 16].map (fun h =>
      ((List.range 16).filter (fun s => slotKind (classify v) (h + s) = .sync)).length)) =
    List.replicate 6 1 ++ List.replicate 5 14 ++ List.replicate 5 1

/-- R109: `n` lines from line `v` lead to line `(v − 1 + n) mod 312 + 1` and raise FRAME by `(v − 1 + n) div 312`; the
DISPATCH after them starts the line VLINE then names. A line is DISPATCH, then the 32 element reads in a model that
steps them and none in a model that does not (notes/assumptions/3.md), then SYNC_DONE. -/
def Obligations.LinesAdvanceVlineAndFrame : Prop :=
  ∀ (n : Nat) (s : State), s.en = true → s.syncPend = true → s.VlineLegal →
    ∃ t, runStimuli (pseudoRepeat n (lineSteps s.lineReads)) s = .next t ∧ t.en = true ∧ t.syncPend = true ∧
      t.plat = s.plat ∧ t.vline.toNat = (s.vline.toNat - 1 + n) % 312 + 1 ∧
      t.frame.toNat = (s.frame.toNat + (s.vline.toNat - 1 + n) / 312) % 2 ^ 32 ∧
      ∃ u, exec .evDispatch t = .next u ∧ u.out = .syncStart (tableAddr s.plat (classify t.vline)) 32

/-- R109: from any state with `EN = 1` and a DISPATCH enabled, 312 lines return VLINE and raise FRAME by exactly 1
modulo 2^32, with the element reads stepped or not (notes/assumptions/3.md). -/
def Obligations.FrameOf312LinesReturnsVline : Prop :=
  ∀ s : State, s.en = true → s.syncPend = true → s.VlineLegal →
    ∃ t, runStimuli (pseudoRepeat 312 (lineSteps s.lineReads)) s = .next t ∧ t.vline = s.vline ∧ t.frame = s.frame + 1

/-! Feed. -/

/-- R136 to R138: an enabled FEED wraps a BLINE of HEIGHT or more to 0, hands out that row's address with the
current width, acknowledges, and counts the row. Nothing else changes. -/
def Obligations.FeedHandsOutTheRow : Prop :=
  ∀ (d : Word) (s : State), decode ⟨0x8003, d⟩ = .evFeed ∧ (s.en = true → s.pixPend = true →
    let r := if s.bline.toNat ≥ 256 then 0 else s.bline.toNat
    let w := Config.width s.curPreset
    let a : Word := BitVec.ofNat 32 (s.curBase.toNat + r * w)
    exec .evFeed s = .next { s with
      pch := some ⟨a, w, 0⟩, pixPend := false, out := .pixStart a w, bline := BitVec.ofNat 9 (r + 1) })

/-- R140: from BLINE = 0 the FEED after `n` rows hands out row `n mod 256`. A row is FEED, then an element read for
each pixel, whatever system memory answers, in a model that steps them and none in a model that does not
(notes/assumptions/3.md), then PIX_DONE. -/
def Obligations.RowsFollowWithPeriod256 : Prop :=
  ∀ (rows : List (List Byte)) (s : State), s.en = true → s.pixPend = true → s.bline = 0 →
    (∀ pixels ∈ rows, pixels.length = s.rowReads) →
    ∃ t u, runStimuli (rows.flatMap rowSteps) s = .next t ∧ t.curBase = s.curBase ∧ t.curPreset = s.curPreset ∧
      exec .evFeed t = .next u ∧
      u.out = .pixStart (BitVec.ofNat 32 (s.curBase.toNat + rows.length % 256 * Config.width s.curPreset))
        (Config.width s.curPreset)

/-- R139: FEED reads neither VLINE nor FRAME nor anything else of the sync side. -/
def Obligations.FeedIgnoresTheSyncSide : Prop :=
  ∀ s s' t : State, s'.bline = s.bline → s'.curBase = s.curBase → s'.curPreset = s.curPreset → s'.en = s.en →
    s'.pixPend = s.pixPend → exec .evFeed s = .next t →
    ∃ t', exec .evFeed s' = .next t' ∧ t'.out = t.out ∧ t'.bline = t.bline ∧ t'.pch = t.pch ∧ t'.pixPend = t.pixPend ∧
      t'.vline = s'.vline ∧ t'.frame = s'.frame

/-- R107: DISPATCH reads and writes neither BLINE nor BORDER nor any byte of `T`. -/
def Obligations.DispatchIgnoresThePictureSide : Prop :=
  ∀ (s t : State) (bl : BitVec 9) (bo : BitVec 6) (m : Memory), exec .evDispatch s = .next t →
    t.bline = s.bline ∧ t.border = s.border ∧ t.tbl = s.tbl ∧
    exec .evDispatch { s with bline := bl, border := bo, tbl := m } = .next { t with bline := bl, border := bo, tbl := m }

/-! Completions, refusals of steps that are not enabled, reset. -/

/-- R149, R151: the completion of a complete transfer idles its channel and sets its pending bit. In a model that steps
element reads the transfer is complete when all its elements have been read; in a model that does not, that is taken
as reached, as R149 allows (notes/assumptions/3.md). -/
def Obligations.CompletionsSetTheirPendingBit : Prop :=
  ∀ (d : Word) (s : State) (x : Transfer), decode ⟨0x8000, d⟩ = .evSyncDone ∧ decode ⟨0x8001, d⟩ = .evPixDone ∧
    ((s.stepsElements = true → x.done = x.count) →
      (s.sch = some x → exec .evSyncDone s = .next { s with sch := none, syncPend := true, out := .quiet }) ∧
      (s.pch = some x → exec .evPixDone s = .next { s with pch := none, pixPend := true, out := .quiet }))

/-- R81, R149, R151: an event word whose step is not enabled is refused: a completion of an idle channel, a completion
of a transfer of which, in a model that steps element reads, not all elements have been read (notes/assumptions/3.md),
and DISPATCH and FEED without EN and their pending bit. In a model that does not step element reads they are refused
too. The names of the refusals are the model's (notes/assumptions/17.md). -/
def Obligations.EventsNotEnabledAreRefused : Prop :=
  ∀ s : State,
    (s.sch = none → exec .evSyncDone s = .refused .syncDoneNotEnabled) ∧
    (s.pch = none → exec .evPixDone s = .refused .pixDoneNotEnabled) ∧
    (∀ x, s.stepsElements = true → x.done ≠ x.count →
      (s.sch = some x → exec .evSyncDone s = .refused .syncDoneNotEnabled) ∧
      (s.pch = some x → exec .evPixDone s = .refused .pixDoneNotEnabled)) ∧
    (s.en = false ∨ s.syncPend = false → exec .evDispatch s = .refused .dispatchNotEnabled) ∧
    (s.en = false ∨ s.pixPend = false → exec .evFeed s = .refused .feedNotEnabled) ∧
    (s.stepsElements = false → take .syncRead s = .refused .elementsNotStepped ∧
      ∀ v, take (.pixRead v) s = .refused .elementsNotStepped)

/-- R170: RESET, from any state, gives every register its reset value, `T` the bytes of R91 with `b = 0`, and
idles both channels. That it leaves the OPEN parameters, the choice whether element reads are steps and the stimuli
still to come is the model's reading (notes/assumptions/16.md), and that the ports are quiet is its record of the
step (notes/assumptions/6.md). -/
def Obligations.ResetRestoresTheResetState : Prop :=
  ∀ (d : Word) (s : State), decode ⟨0x8004, d⟩ = .evReset ∧ ∃ t, exec .evReset s = .next t ∧
    t = { s with
      vline := 1, frame := 0, bline := 0, en := false, syncPend := false, pixPend := false, border := 0
      curPreset := 0, pendPreset := 0, upd := false, curBase := 0, pendBase := 0, tbl := t.tbl
      sch := none, pch := none, out := .quiet } ∧
    (List.range 160).map t.tbl.read =
      (List.replicate 14 0x00 ++ List.replicate 2 0x01 ++ List.replicate 14 0x00 ++ List.replicate 2 0x01)
      ++ (List.replicate 14 0x00 ++ List.replicate 2 0x01 ++ List.replicate 1 0x00 ++ List.replicate 15 0x01)
      ++ (List.replicate 1 0x00 ++ List.replicate 15 0x01 ++ List.replicate 1 0x00 ++ List.replicate 15 0x01)
      ++ (List.replicate 2 0x00 ++ List.replicate 30 0x40)
      ++ (List.replicate 2 0x00 ++ List.replicate 6 0x40 ++ List.replicate 20 0x80 ++ List.replicate 4 0x40)

/-- R27 to R40, R43: the values at reset, and `T` by the rows of R91 with `b = 0`. -/
def Obligations.ResetValuesOfTheSpec : Prop :=
  let s := State.reset
  s.vline = 1 ∧ s.frame = 0 ∧ s.bline = 0 ∧ s.en = false ∧ s.syncPend = false ∧ s.pixPend = false ∧ s.border = 0 ∧
  s.curPreset = 0 ∧ s.curBase = 0 ∧ s.pendPreset = 0 ∧ s.pendBase = 0 ∧ s.upd = false ∧ s.sch = none ∧ s.pch = none ∧
  ∀ i < 160, s.tbl.read i = layoutCode 0 i

/-! Tables. -/

/-- R91: the bytes of the five tables for border colour `b`. -/
def Obligations.ReferenceLayoutBytes : Prop :=
  ∀ b : BitVec 6, (List.range 160).map (layoutCode b) =
    (List.replicate 14 0x00 ++ List.replicate 2 0x01 ++ List.replicate 14 0x00 ++ List.replicate 2 0x01)
    ++ (List.replicate 14 0x00 ++ List.replicate 2 0x01 ++ List.replicate 1 0x00 ++ List.replicate 15 0x01)
    ++ (List.replicate 1 0x00 ++ List.replicate 15 0x01 ++ List.replicate 1 0x00 ++ List.replicate 15 0x01)
    ++ (List.replicate 2 0x00 ++ List.replicate 30 (BitVec.ofNat 8 (0x40 + b.toNat)))
    ++ (List.replicate 2 0x00 ++ List.replicate 6 (BitVec.ofNat 8 (0x40 + b.toNat)) ++ List.replicate 20 0x80
        ++ List.replicate 4 (BitVec.ofNat 8 (0x40 + b.toNat)))

/-- R93: the border flag stands in exactly the slots 2 to 31 of BD and 2 to 7 and 28 to 31 of AL. -/
def Obligations.BorderFlagMarksTheBorderSlots : Prop :=
  ∀ s : State, s.TablesShowBorder → ∀ i < 160,
    (borderFlag (s.tbl.read i) = true ↔ (98 ≤ i ∧ i < 128) ∨ (130 ≤ i ∧ i < 136) ∨ (156 ≤ i ∧ i < 160))

/-- R95, R96: only the slots 8 to 27 of AL cede their tick to the picture generator. -/
def Obligations.OnlyTheGapCedesTheTick : Prop :=
  ∀ s : State, s.TablesShowBorder → ∀ i < 160, (tickSource (s.tbl.read i) = .picture ↔ 136 ≤ i ∧ i < 156)

/-! Channel reads. -/

/-- R61, R148: in a model that steps element reads (notes/assumptions/3.md), one of the sync channel gets the code `T[32k + done]` as it is at that moment, counts
the element, and changes nothing else. -/
def Obligations.SyncElementReadGetsTheCurrentCode : Prop :=
  ∀ (s : State) (x : Transfer), s.Inv → s.stepsElements = true → s.sch = some x → x.done < 32 →
    ∃ k : Table, x.addr = tableAddr s.plat k ∧
      take .syncRead s = .next { s with
        sch := some ⟨x.addr, x.count, x.done + 1⟩, out := .syncCode (s.tbl.read (32 * k.index + x.done)) }

/-- R61, R75, R76: no element read delivers a code outside the four kinds: an old or a new colour, never a corrupt code. -/
def Obligations.SyncElementReadsAreNeverCorrupt : Prop :=
  ∀ s t : State, s.Inv → take .syncRead s = .next t → ∃ c, t.out = .syncCode c ∧ legalCode s.plat.borderMax c = true

/-- R54, R95: in a model that steps element reads (notes/assumptions/3.md), the ones after a DISPATCH deliver the table's codes in order, slot 0 first. -/
def Obligations.DispatchedTableIsReadSlotBySlot : Prop :=
  ∀ (s : State) (j : Nat), s.Inv → s.stepsElements = true → s.en = true → s.syncPend = true → j < 32 →
    ∃ t u, runStimuli (stimulusOf .evDispatch :: List.replicate j .syncRead) s = .next t ∧ take .syncRead t = .next u ∧
      u.out = .syncCode (s.tbl.read (32 * (classify s.vline).index + j))

/-- R55, R63, R150: in a model that steps element reads (notes/assumptions/3.md), one of the picture channel goes to the next address of its row, whatever system
memory answers. -/
def Obligations.PictureElementReadsAscend : Prop :=
  ∀ (s : State) (x : Transfer) (v : Byte), s.stepsElements = true → s.pch = some x → x.done < x.count →
    take (.pixRead v) s = .next { s with
      pch := some ⟨x.addr, x.count, x.done + 1⟩, out := .pixel (BitVec.ofNat 32 (x.addr.toNat + x.done)) v }

/-! Invariants and whole-machine rules. -/

/-- R39, R45, R46: every step keeps the invariants. -/
def Obligations.StepKeepsTheInvariants : Prop :=
  ∀ s t : State, s.Inv → step s = .next t → t.Inv

/-- R39, R45, R46: the state RESET leaves meets the invariants, for every value of the OPEN parameters and of the model's
own fields. -/
def Obligations.ResetStateMeetsTheInvariants : Prop :=
  ∀ (p : Platform) (b : Bool) (l : List Stimulus),
    State.Inv { State.reset with plat := p, stepsElements := b, inputs := l }

/-- R45, R161: a start is never issued to a busy channel, and a completion never finds its pending bit already set. -/
def Obligations.ChannelsCarryOneRequest : Prop :=
  ∀ s t : State, s.Inv →
    (exec .evDispatch s = .next t → s.sch = none) ∧ (exec .evFeed s = .next t → s.pch = none) ∧
    (exec .evSyncDone s = .next t → s.syncPend = false ∧ s.en = true) ∧
    (exec .evPixDone s = .next t → s.pixPend = false ∧ s.en = true)

/-- R27, R28, R29, R110, R164: the counters change only at DISPATCH (VLINE and FRAME), FEED (BLINE) and RESET; FRAME only
at a DISPATCH that finds the last line, by +1, and VLINE is 1 after it. -/
def Obligations.CountersChangeOnlyAtTheirSteps : Prop :=
  ∀ (i : Instr) (s t : State), exec i s = .next t →
    (t.vline ≠ s.vline → i = .evDispatch ∨ i = .evReset) ∧
    (t.frame ≠ s.frame → i = .evReset ∨
      (i = .evDispatch ∧ 312 ≤ s.vline.toNat ∧ t.frame = s.frame + 1 ∧ t.vline = 1)) ∧
    (t.bline ≠ s.bline → i = .evFeed ∨ i = .evReset)

/-- R30 to R32, R38, R41, R155: what sets and what clears EN, the pending bits and UPD. -/
def Obligations.StatusBitsChangeOnlyByTheirWriters : Prop :=
  ∀ (i : Instr) (s t : State), exec i s = .next t →
    (s.en = false → t.en = true → ∃ d, i = .wrCtrl d) ∧ (s.en = true → t.en = false → i = .evReset) ∧
    (s.syncPend = false → t.syncPend = true → i = .evSyncDone ∨ ∃ d, i = .wrCtrl d) ∧
    (s.syncPend = true → t.syncPend = false → i = .evDispatch ∨ i = .evReset) ∧
    (s.pixPend = false → t.pixPend = true → i = .evPixDone ∨ ∃ d, i = .wrCtrl d) ∧
    (s.pixPend = true → t.pixPend = false → i = .evFeed ∨ i = .evReset) ∧
    (s.upd = false → t.upd = true → s.en = true ∧ ((∃ d, i = .wrMode d) ∨ ∃ d, i = .wrFbBase d)) ∧
    (s.upd = true → t.upd = false → i = .evDispatch ∨ i = .evReset)

/-- R33 to R37, R40, R106: BORDER and `T` change only by WR BORDER and RESET. The current preset and base change
only by their direct write while `EN = 0`, by the commit of a DISPATCH at the frame boundary with `UPD = 1`, and by
RESET. The pending ones change only by their write and RESET. -/
def Obligations.ConfigurationChangesOnlyByItsWriters : Prop :=
  ∀ (i : Instr) (s t : State), exec i s = .next t →
    ((t.border ≠ s.border ∨ t.tbl ≠ s.tbl) → i = .evReset ∨ ∃ d, i = .wrBorder d ∧ d.toNat ≤ s.plat.borderMax.toNat) ∧
    (t.curPreset ≠ s.curPreset → i = .evReset ∨ (s.en = false ∧ ∃ d, i = .wrMode d) ∨
      (i = .evDispatch ∧ 312 ≤ s.vline.toNat ∧ s.upd = true ∧ t.curPreset = s.pendPreset)) ∧
    (t.curBase ≠ s.curBase → i = .evReset ∨ (s.en = false ∧ ∃ d, i = .wrFbBase d) ∨
      (i = .evDispatch ∧ 312 ≤ s.vline.toNat ∧ s.upd = true ∧ t.curBase = s.pendBase)) ∧
    (t.pendPreset ≠ s.pendPreset → i = .evReset ∨ ∃ d, i = .wrMode d) ∧
    (t.pendBase ≠ s.pendBase → i = .evReset ∨ ∃ d, i = .wrFbBase d)

/-- R43, R47, R103, R137, R148 to R151: a channel's transfer changes only by the step that starts it, by an element
read, which counts one element, by its completion and by RESET. No step changes the OPEN parameters
(notes/assumptions/1.md), the choice whether element reads are steps (notes/assumptions/3.md) or the stimuli still to
come (notes/assumptions/5.md). -/
def Obligations.ChannelsChangeOnlyByTheirSteps : Prop :=
  ∀ (r : Stimulus) (s t : State), take r s = .next t →
    (t.sch ≠ s.sch → r.instr = some .evDispatch ∨ r.instr = some .evSyncDone ∨ r.instr = some .evReset ∨
      (r = .syncRead ∧ ∃ x, s.sch = some x ∧ x.done < x.count ∧ t.sch = some ⟨x.addr, x.count, x.done + 1⟩)) ∧
    (t.pch ≠ s.pch → r.instr = some .evFeed ∨ r.instr = some .evPixDone ∨ r.instr = some .evReset ∨
      ((∃ v, r = .pixRead v) ∧ ∃ x, s.pch = some x ∧ x.done < x.count ∧ t.pch = some ⟨x.addr, x.count, x.done + 1⟩)) ∧
    t.plat = s.plat ∧ t.stepsElements = s.stepsElements ∧ t.inputs = s.inputs

/-- R108: after a commit the divisor output, GEOM and the next FEED use the new preset and base, and the picture
transfer in flight keeps the address and count it was started with. -/
def Obligations.CommitTakesEffectAtOnce : Prop :=
  ∀ s : State, s.en = true → s.syncPend = true → 312 ≤ s.vline.toNat → s.upd = true →
    ∃ t, exec .evDispatch s = .next t ∧ t.pixDiv = Config.divisor s.pendPreset ∧
      t.geomWord = BitVec.ofNat 32 (0x10000 * 256 + Config.width s.pendPreset) ∧ t.pch = s.pch ∧
      ∀ r, t.rowAddr r = BitVec.ofNat 32 (s.pendBase.toNat + r * Config.width s.pendPreset)

/-- R176: a FEED comes only after the transfer in flight before it has completed, so after a FEED the one picture
transfer in flight is a row of the current base at the current width. -/
def Obligations.FeedLeavesNoOldRowInFlight : Prop :=
  ∀ s t : State, s.Inv → exec .evFeed s = .next t → s.pch = none ∧
    ∃ r < 256, t.pch = some ⟨BitVec.ofNat 32 (s.curBase.toNat + r * Config.width s.curPreset), Config.width s.curPreset, 0⟩

/-! The step and the host. -/

/-- R23: a step is one transition: an operation word runs the operation it decodes to, the word of a well-formed
operation runs that operation, and an element read is a step of its own. That the steps to come are a list, of which a
step takes the first, is the model's choice (notes/assumptions/5.md), and so is the free order of that list
(notes/assumptions/13.md). -/
def Obligations.StepRunsTheNextOperation : Prop :=
  (∀ (op : OpWord) (d : Word) (rest : List Stimulus) (s : State), s.inputs = .access op d :: rest →
    step s = exec (decode ⟨op, d⟩) { s with inputs := rest }) ∧
  (∀ (i : Instr) (rest : List Stimulus) (s : State), i.WellFormed → s.inputs = stimulusOf i :: rest →
    step s = exec i { s with inputs := rest }) ∧
  (∀ (rest : List Stimulus) (s : State), s.inputs = .syncRead :: rest → step s = take .syncRead { s with inputs := rest }) ∧
  (∀ (v : Byte) (rest : List Stimulus) (s : State), s.inputs = .pixRead v :: rest →
    step s = take (.pixRead v) { s with inputs := rest })

/-- The model's own choice of the step with no stimulus waiting (notes/assumptions/4.md, read from R80, R157, R158,
R168): FEED if it is enabled, else DISPATCH if it is enabled, else the state is held. -/
def Obligations.BlockStepsOfItsOwnAccord : Prop :=
  ∀ s : State, s.inputs = [] →
    (s.en = true → s.pixPend = true → step s = exec .evFeed s) ∧
    (s.en = true → s.pixPend = false → s.syncPend = true → step s = exec .evDispatch s) ∧
    (s.en = false ∨ (s.pixPend = false ∧ s.syncPend = false) → step s = .next { s with out := .quiet })

/-- `withFetchWord` places a table word as the very next step (notes/assumptions/5.md). -/
def Obligations.PlacedWordRunsNext : Prop :=
  ∀ (nbits w : Nat) (i : Instr) (s : State), decodeTableWord nbits w = some i → step (s.withFetchWord nbits w) = exec i s

/-- R158: in the cycle of a commit, a FEED sees the base and preset from before it, and host writes of MODE and
FB_BASE go to the next frame boundary. -/
def Obligations.SameCycleWritesMissTheCommit : Prop :=
  ∀ (s : State) (m b : Word), s.en = true → s.syncPend = true → s.pixPend = true → 312 ≤ s.vline.toNat → s.upd = true →
    ∃ t, runStimuli (Cycle.stimuli ⟨[], true, true, [encode (.wrMode m), encode (.wrFbBase b)], false, false, false⟩) s = .next t ∧
      t.pch = some ⟨s.rowAddr s.feedRow, s.curWidth, 0⟩ ∧
      t.curPreset = s.pendPreset ∧ t.curBase = s.pendBase ∧ t.upd = true ∧
      t.pendPreset = presetOfDatum m ∧ t.pendBase = b ∧ t.vline = 1 ∧ t.frame = s.frame + 1

/-- R158: host reads of a cycle see the state from before it, and RESET overrides everything else in its cycle. -/
def Obligations.CycleReadsFirstAndResetOverrides : Prop :=
  (∀ (s : State) (c : Cycle), c.reset = true → runStimuli c.stimuli s = exec .evReset s) ∧
  (∀ (s : State) (c : Cycle) (op : OpWord) (rest : List OpWord), c.reset = false → c.hostReads = op :: rest →
    ∃ tail, c.stimuli = .access op 0 :: tail ∧ (opClass op = 0b00 → opSz op ≠ 0b11 →
      ∃ t, take (.access op 0) s = .next t ∧ SameButOutput s t ∧
        runStimuli c.stimuli s = runStimuli (Cycle.stimuli { c with hostReads := rest }) t))

/-- R145: while `EN = 0`, `wait_frame` never returns, whatever other agents do short of enabling or resetting the block. -/
def Obligations.WaitFrameHangsWhileDisabled : Prop :=
  ∀ (gaps : List (List Stimulus)) (s : State), s.en = false →
    (∀ g ∈ gaps, ∀ r ∈ g, r.writesCtrl = false ∧ r.isReset = false) →
    ∀ (v : Word) (t : State), waitFrame gaps s ≠ .returned v t

/-- R143: when `wait_frame` returns and no RESET has stepped, a DISPATCH that found VLINE = 312 has stepped between its
first read and its last. -/
def Obligations.WaitFrameReturnMeansFrameBoundary : Prop :=
  ∀ (gaps : List (List Stimulus)) (s t : State) (v : Word), s.Inv →
    (∀ g ∈ gaps, ∀ r ∈ g, r.isReset = false) → waitFrame gaps s = .returned v t →
    ∃ l₁ r l₂ u, gaps.flatten = l₁ ++ r :: l₂ ∧ r.isDispatch = true ∧ runStimuli l₁ s = .next u ∧ u.vline = 312

/-- R146: with `EN = 1`, after writes of FB_BASE, of MODE or of both, in any order, a poll of STATUS.UPD that ends has
seen a commit step since: a DISPATCH that found VLINE = 312 and UPD = 1. The current base and preset then are the last
ones written before that commit, by this host or another. And `set_mode` is the MODE write, followed by that poll
exactly when `EN = 1` (R88). The gaps before the reads are free, but for RESET (notes/assumptions/15.md). -/
def Obligations.SetModeProtocolInstallsTheWrites : Prop :=
  (∀ (writes : List Stimulus) (gaps : List (List Stimulus)) (s t u : State) (v : Word), s.Inv → s.en = true →
    writes ≠ [] → (∀ r ∈ writes, r.writesConfig = true) → (∀ g ∈ gaps, ∀ r ∈ g, r.isReset = false) →
    runStimuli writes s = .next t → waitCommit gaps t = .returned v u →
    ∃ l₁ r l₂ rest x y, gaps.flatten = l₁ ++ r :: l₂ ++ rest ∧
      runStimuli l₁ t = .next x ∧ r.isDispatch = true ∧ x.vline = 312 ∧ x.upd = true ∧
      runStimuli (l₁ ++ r :: l₂) t = .next y ∧ SameButOutput y u ∧ u.upd = false ∧
      u.curBase = lastBase s.pendBase (writes ++ l₁) ∧ u.curPreset = lastPreset s.pendPreset (writes ++ l₁)) ∧
  (∀ (p : Word) (gaps : List (List Stimulus)) (s : State),
    (s.en = false → pseudoSetMode p gaps s =
      .notPolled { s with curPreset := presetOfDatum p, pendPreset := presetOfDatum p, out := .writeDone }) ∧
    (s.en = true → pseudoSetMode p gaps s =
      waitCommit gaps { s with pendPreset := presetOfDatum p, upd := true, out := .writeDone }))

/-- R145, R159: in a run without RESET that starts with `EN = 1`, FRAME changes again and again, if an enabled DISPATCH
eventually steps and a started sync transfer eventually completes. If also each host master's next access eventually
steps, then every `wait_frame` ends: the steps of the run from its first read on are those of a `wait_frame` that
returns. That FRAME does not go once around between two steps of that master is a premise of the model's own, without
which the claim of R145 is false of a counter that wraps (notes/assumptions/19.md). -/
def Obligations.FrameChangesInFairRuns : Prop :=
  ∀ ρ : Run, ρ.Follows → ρ.NoReset → (ρ.state 0).Inv → (ρ.state 0).en = true → ρ.FairDispatch → ρ.FairSync →
    (∀ n, ∃ m, n ≤ m ∧ (ρ.state m).frame ≠ (ρ.state n).frame) ∧
    (ρ.FairHost → ∀ m k, ρ.WaitsFrame m k → ρ.NoFrameWrapBetweenReads m →
      ∃ j gaps v, k < j ∧ ρ.ReadsFrame m j ∧
        (List.range' k (j + 1 - k)).map ρ.label = waitFrameSteps gaps ∧
        waitFrame gaps (ρ.state k) = .returned v (ρ.state (j + 1)))
end

