-- ==== Sys2Proof/Laws/Decode.lean ====
section
/-! SUPPORT. The laws of the encoding: an encoded word as a number, the fields the decoder reads from it, and that the fields make up the word. -/

namespace Sys2Proof

theorem hostWord_toNat (c z : BitVec 2) (o : Offset) :
    (hostWord c z o).toNat = c.toNat * 16384 + z.toNat * 4096 + o.toNat := by
  have e : (hostWord c z o).toNat = (c ++ z ++ o : BitVec (2 + 2 + 12)).toNat := rfl
  rw [e, BitVec.toNat_append, BitVec.toNat_append, ← Nat.shiftLeft_add_eq_or_of_lt z.isLt,
    ← Nat.shiftLeft_add_eq_or_of_lt o.isLt, Nat.shiftLeft_eq, Nat.shiftLeft_eq]
  omega

theorem bodyWord_toNat (c : BitVec 2) (b : BitVec 14) : (bodyWord c b).toNat = c.toNat * 16384 + b.toNat := by
  have e : (bodyWord c b).toNat = (c ++ b : BitVec (2 + 14)).toNat := rfl
  rw [e, BitVec.toNat_append, ← Nat.shiftLeft_add_eq_or_of_lt b.isLt, Nat.shiftLeft_eq]

theorem opClass_toNat (op : OpWord) : (opClass op).toNat = op.toNat / 16384 % 4 := by
  simp [opClass, BitVec.extractLsb'_toNat, Nat.shiftRight_eq_div_pow]

theorem opSz_toNat (op : OpWord) : (opSz op).toNat = op.toNat / 4096 % 4 := by
  simp [opSz, BitVec.extractLsb'_toNat, Nat.shiftRight_eq_div_pow]

theorem opOff_toNat (op : OpWord) : (opOff op).toNat = op.toNat % 4096 := by
  simp [opOff, BitVec.extractLsb'_toNat]

theorem opBody_toNat (op : OpWord) : (opBody op).toNat = op.toNat % 16384 := by
  simp [opBody, BitVec.extractLsb'_toNat]

@[simp] theorem opClass_hostWord (c z : BitVec 2) (o : Offset) : opClass (hostWord c z o) = c := by
  apply BitVec.eq_of_toNat_eq
  rw [opClass_toNat, hostWord_toNat]
  omega

@[simp] theorem opSz_hostWord (c z : BitVec 2) (o : Offset) : opSz (hostWord c z o) = z := by
  apply BitVec.eq_of_toNat_eq
  rw [opSz_toNat, hostWord_toNat]
  omega

@[simp] theorem opOff_hostWord (c z : BitVec 2) (o : Offset) : opOff (hostWord c z o) = o := by
  apply BitVec.eq_of_toNat_eq
  rw [opOff_toNat, hostWord_toNat]
  omega

@[simp] theorem opClass_bodyWord (c : BitVec 2) (b : BitVec 14) : opClass (bodyWord c b) = c := by
  apply BitVec.eq_of_toNat_eq
  rw [opClass_toNat, bodyWord_toNat]
  omega

@[simp] theorem opBody_bodyWord (c : BitVec 2) (b : BitVec 14) : opBody (bodyWord c b) = b := by
  apply BitVec.eq_of_toNat_eq
  rw [opBody_toNat, bodyWord_toNat]
  omega

/-- CLASS, SZ and OFF make up the word. -/
theorem hostWord_fields (op : OpWord) : hostWord (opClass op) (opSz op) (opOff op) = op := by
  apply BitVec.eq_of_toNat_eq
  rw [hostWord_toNat, opClass_toNat, opSz_toNat, opOff_toNat]
  omega

/-- CLASS and op[13:0] make up the word. -/
theorem bodyWord_fields (op : OpWord) : bodyWord (opClass op) (opBody op) = op := by
  apply BitVec.eq_of_toNat_eq
  rw [bodyWord_toNat, opClass_toNat, opBody_toNat]
  omega

/-! Decoding a word made from fields, one lemma per class. -/

theorem decode_readWord {sz : BitVec 2} {n : AccessSize} (h : sizeOfSz sz = some n) (off : Offset) :
    decode (readWord sz off) = decodeRead n off := by
  simp [decode, readWord, h]

theorem decode_writeWord {sz : BitVec 2} {n : AccessSize} (h : sizeOfSz sz = some n) (off : Offset) (d : Word) :
    decode (writeWord sz off d) = decodeWrite n off d := by
  simp [decode, writeWord, h]

theorem decode_eventWord (b : BitVec 14) : decode (eventWord b) = decodeEvent b := by
  simp [decode, eventWord]

/-- The size a SZ field names, and back. -/
theorem sizeOfSz_cases (sz : BitVec 2) :
    (sz = 0b00 ∧ sizeOfSz sz = some .byte) ∨ (sz = 0b01 ∧ sizeOfSz sz = some .half) ∨
    (sz = 0b10 ∧ sizeOfSz sz = some .word) ∨ (sz = 0b11 ∧ sizeOfSz sz = none) := by
  revert sz
  decide

/-- The four values of CLASS. -/
theorem opClass_cases (c : BitVec 2) : c = 0b00 ∨ c = 0b01 ∨ c = 0b10 ∨ c = 0b11 := by
  revert c
  decide

/-- What a word decodes to, by its class and size (R71): one case per decode step 1 to 3, and the two host classes. -/
theorem decode_cases (a : Access) :
    (opClass a.op = 0b11 ∧ decode a = .illegalClass11 (opBody a.op)) ∨
    (opClass a.op = 0b10 ∧ decode a = decodeEvent (opBody a.op)) ∨
    ((opClass a.op = 0b00 ∨ opClass a.op = 0b01) ∧ opSz a.op = 0b11 ∧
      decode a = .illegalSz11 (opClass a.op == 0b01) (opOff a.op)) ∨
    (∃ n, opClass a.op = 0b00 ∧ sizeOfSz (opSz a.op) = some n ∧ decode a = decodeRead n (opOff a.op)) ∨
    (∃ n, opClass a.op = 0b01 ∧ sizeOfSz (opSz a.op) = some n ∧ decode a = decodeWrite n (opOff a.op) a.wdata) := by
  unfold decode
  rcases opClass_cases (opClass a.op) with h | h | h | h <;>
    rcases sizeOfSz_cases (opSz a.op) with ⟨hz, hs⟩ | ⟨hz, hs⟩ | ⟨hz, hs⟩ | ⟨hz, hs⟩ <;> rw [hs] <;> simp [h, hz]

/-- R71 step 6: the register rows an aligned 4-byte read of the register region can decode to. -/
theorem decodeRegRead_mem (off : Offset) :
    decodeRegRead off ∈ [.rdCtrl, .rdStatus, .rdVline, .rdBline, .rdFrame, .rdBorder, .rdMode, .rdFbBase, .rdFbPend,
      .rdGeom, Instr.rdRsvr off] := by
  unfold decodeRegRead
  split_ifs <;> simp

/-- R71 step 6: the register rows an aligned 4-byte write of the register region can decode to. -/
theorem decodeRegWrite_mem (off : Offset) (d : Word) :
    decodeRegWrite off d ∈ [.wrCtrl d, .wrStatus d, .wrVline d, .wrBline d, .wrFrame d, .wrBorder d, .wrMode d,
      .wrFbBase d, .wrFbPend d, .wrGeom d, Instr.wrRsvr off d] := by
  unfold decodeRegWrite
  split_ifs <;> simp

end Sys2Proof
end

