-- ==== Sys2Proof/Laws/State.lean ====
section
/-! SUPPORT. What each named update leaves in each field of the state: one lemma per field, so that no proof unfolds a record update. -/

namespace Sys2Proof.Machine

section
variable (s : State)

@[simp] theorem State.present_vline (o : Output) : (s.present o).vline = s.vline := rfl
@[simp] theorem State.present_frame (o : Output) : (s.present o).frame = s.frame := rfl
@[simp] theorem State.present_bline (o : Output) : (s.present o).bline = s.bline := rfl
@[simp] theorem State.present_en (o : Output) : (s.present o).en = s.en := rfl
@[simp] theorem State.present_syncPend (o : Output) : (s.present o).syncPend = s.syncPend := rfl
@[simp] theorem State.present_pixPend (o : Output) : (s.present o).pixPend = s.pixPend := rfl
@[simp] theorem State.present_border (o : Output) : (s.present o).border = s.border := rfl
@[simp] theorem State.present_curPreset (o : Output) : (s.present o).curPreset = s.curPreset := rfl
@[simp] theorem State.present_curBase (o : Output) : (s.present o).curBase = s.curBase := rfl
@[simp] theorem State.present_pendPreset (o : Output) : (s.present o).pendPreset = s.pendPreset := rfl
@[simp] theorem State.present_pendBase (o : Output) : (s.present o).pendBase = s.pendBase := rfl
@[simp] theorem State.present_upd (o : Output) : (s.present o).upd = s.upd := rfl
@[simp] theorem State.present_tbl (o : Output) : (s.present o).tbl = s.tbl := rfl
@[simp] theorem State.present_sch (o : Output) : (s.present o).sch = s.sch := rfl
@[simp] theorem State.present_pch (o : Output) : (s.present o).pch = s.pch := rfl
@[simp] theorem State.present_plat (o : Output) : (s.present o).plat = s.plat := rfl
@[simp] theorem State.present_stepsElements (o : Output) : (s.present o).stepsElements = s.stepsElements := rfl
@[simp] theorem State.present_out (o : Output) : (s.present o).out = o := rfl
@[simp] theorem State.present_inputs (o : Output) : (s.present o).inputs = s.inputs := rfl

@[simp] theorem State.startSync_vline (a : Word) : (s.startSync a).vline = s.vline := rfl
@[simp] theorem State.startSync_frame (a : Word) : (s.startSync a).frame = s.frame := rfl
@[simp] theorem State.startSync_bline (a : Word) : (s.startSync a).bline = s.bline := rfl
@[simp] theorem State.startSync_en (a : Word) : (s.startSync a).en = s.en := rfl
@[simp] theorem State.startSync_syncPend (a : Word) : (s.startSync a).syncPend = false := rfl
@[simp] theorem State.startSync_pixPend (a : Word) : (s.startSync a).pixPend = s.pixPend := rfl
@[simp] theorem State.startSync_border (a : Word) : (s.startSync a).border = s.border := rfl
@[simp] theorem State.startSync_curPreset (a : Word) : (s.startSync a).curPreset = s.curPreset := rfl
@[simp] theorem State.startSync_curBase (a : Word) : (s.startSync a).curBase = s.curBase := rfl
@[simp] theorem State.startSync_pendPreset (a : Word) : (s.startSync a).pendPreset = s.pendPreset := rfl
@[simp] theorem State.startSync_pendBase (a : Word) : (s.startSync a).pendBase = s.pendBase := rfl
@[simp] theorem State.startSync_upd (a : Word) : (s.startSync a).upd = s.upd := rfl
@[simp] theorem State.startSync_tbl (a : Word) : (s.startSync a).tbl = s.tbl := rfl
@[simp] theorem State.startSync_sch (a : Word) : (s.startSync a).sch = some ⟨a, Config.tableLen, 0⟩ := rfl
@[simp] theorem State.startSync_pch (a : Word) : (s.startSync a).pch = s.pch := rfl
@[simp] theorem State.startSync_plat (a : Word) : (s.startSync a).plat = s.plat := rfl
@[simp] theorem State.startSync_stepsElements (a : Word) : (s.startSync a).stepsElements = s.stepsElements := rfl
@[simp] theorem State.startSync_out (a : Word) : (s.startSync a).out = .syncStart a Config.tableLen := rfl
@[simp] theorem State.startSync_inputs (a : Word) : (s.startSync a).inputs = s.inputs := rfl

@[simp] theorem State.completeSync_vline : (s.completeSync).vline = s.vline := rfl
@[simp] theorem State.completeSync_frame : (s.completeSync).frame = s.frame := rfl
@[simp] theorem State.completeSync_bline : (s.completeSync).bline = s.bline := rfl
@[simp] theorem State.completeSync_en : (s.completeSync).en = s.en := rfl
@[simp] theorem State.completeSync_syncPend : (s.completeSync).syncPend = true := rfl
@[simp] theorem State.completeSync_pixPend : (s.completeSync).pixPend = s.pixPend := rfl
@[simp] theorem State.completeSync_border : (s.completeSync).border = s.border := rfl
@[simp] theorem State.completeSync_curPreset : (s.completeSync).curPreset = s.curPreset := rfl
@[simp] theorem State.completeSync_curBase : (s.completeSync).curBase = s.curBase := rfl
@[simp] theorem State.completeSync_pendPreset : (s.completeSync).pendPreset = s.pendPreset := rfl
@[simp] theorem State.completeSync_pendBase : (s.completeSync).pendBase = s.pendBase := rfl
@[simp] theorem State.completeSync_upd : (s.completeSync).upd = s.upd := rfl
@[simp] theorem State.completeSync_tbl : (s.completeSync).tbl = s.tbl := rfl
@[simp] theorem State.completeSync_sch : (s.completeSync).sch = none := rfl
@[simp] theorem State.completeSync_pch : (s.completeSync).pch = s.pch := rfl
@[simp] theorem State.completeSync_plat : (s.completeSync).plat = s.plat := rfl
@[simp] theorem State.completeSync_stepsElements : (s.completeSync).stepsElements = s.stepsElements := rfl
@[simp] theorem State.completeSync_out : (s.completeSync).out = .quiet := rfl
@[simp] theorem State.completeSync_inputs : (s.completeSync).inputs = s.inputs := rfl

@[simp] theorem State.startPix_vline (a : Word) (n : Nat) : (s.startPix a n).vline = s.vline := rfl
@[simp] theorem State.startPix_frame (a : Word) (n : Nat) : (s.startPix a n).frame = s.frame := rfl
@[simp] theorem State.startPix_bline (a : Word) (n : Nat) : (s.startPix a n).bline = s.bline := rfl
@[simp] theorem State.startPix_en (a : Word) (n : Nat) : (s.startPix a n).en = s.en := rfl
@[simp] theorem State.startPix_syncPend (a : Word) (n : Nat) : (s.startPix a n).syncPend = s.syncPend := rfl
@[simp] theorem State.startPix_pixPend (a : Word) (n : Nat) : (s.startPix a n).pixPend = false := rfl
@[simp] theorem State.startPix_border (a : Word) (n : Nat) : (s.startPix a n).border = s.border := rfl
@[simp] theorem State.startPix_curPreset (a : Word) (n : Nat) : (s.startPix a n).curPreset = s.curPreset := rfl
@[simp] theorem State.startPix_curBase (a : Word) (n : Nat) : (s.startPix a n).curBase = s.curBase := rfl
@[simp] theorem State.startPix_pendPreset (a : Word) (n : Nat) : (s.startPix a n).pendPreset = s.pendPreset := rfl
@[simp] theorem State.startPix_pendBase (a : Word) (n : Nat) : (s.startPix a n).pendBase = s.pendBase := rfl
@[simp] theorem State.startPix_upd (a : Word) (n : Nat) : (s.startPix a n).upd = s.upd := rfl
@[simp] theorem State.startPix_tbl (a : Word) (n : Nat) : (s.startPix a n).tbl = s.tbl := rfl
@[simp] theorem State.startPix_sch (a : Word) (n : Nat) : (s.startPix a n).sch = s.sch := rfl
@[simp] theorem State.startPix_pch (a : Word) (n : Nat) : (s.startPix a n).pch = some ⟨a, n, 0⟩ := rfl
@[simp] theorem State.startPix_plat (a : Word) (n : Nat) : (s.startPix a n).plat = s.plat := rfl
@[simp] theorem State.startPix_stepsElements (a : Word) (n : Nat) : (s.startPix a n).stepsElements = s.stepsElements := rfl
@[simp] theorem State.startPix_out (a : Word) (n : Nat) : (s.startPix a n).out = .pixStart a n := rfl
@[simp] theorem State.startPix_inputs (a : Word) (n : Nat) : (s.startPix a n).inputs = s.inputs := rfl

@[simp] theorem State.completePix_vline : (s.completePix).vline = s.vline := rfl
@[simp] theorem State.completePix_frame : (s.completePix).frame = s.frame := rfl
@[simp] theorem State.completePix_bline : (s.completePix).bline = s.bline := rfl
@[simp] theorem State.completePix_en : (s.completePix).en = s.en := rfl
@[simp] theorem State.completePix_syncPend : (s.completePix).syncPend = s.syncPend := rfl
@[simp] theorem State.completePix_pixPend : (s.completePix).pixPend = true := rfl
@[simp] theorem State.completePix_border : (s.completePix).border = s.border := rfl
@[simp] theorem State.completePix_curPreset : (s.completePix).curPreset = s.curPreset := rfl
@[simp] theorem State.completePix_curBase : (s.completePix).curBase = s.curBase := rfl
@[simp] theorem State.completePix_pendPreset : (s.completePix).pendPreset = s.pendPreset := rfl
@[simp] theorem State.completePix_pendBase : (s.completePix).pendBase = s.pendBase := rfl
@[simp] theorem State.completePix_upd : (s.completePix).upd = s.upd := rfl
@[simp] theorem State.completePix_tbl : (s.completePix).tbl = s.tbl := rfl
@[simp] theorem State.completePix_sch : (s.completePix).sch = s.sch := rfl
@[simp] theorem State.completePix_pch : (s.completePix).pch = none := rfl
@[simp] theorem State.completePix_plat : (s.completePix).plat = s.plat := rfl
@[simp] theorem State.completePix_stepsElements : (s.completePix).stepsElements = s.stepsElements := rfl
@[simp] theorem State.completePix_out : (s.completePix).out = .quiet := rfl
@[simp] theorem State.completePix_inputs : (s.completePix).inputs = s.inputs := rfl

@[simp] theorem State.setBorder_vline (b : BitVec 6) : (s.setBorder b).vline = s.vline := rfl
@[simp] theorem State.setBorder_frame (b : BitVec 6) : (s.setBorder b).frame = s.frame := rfl
@[simp] theorem State.setBorder_bline (b : BitVec 6) : (s.setBorder b).bline = s.bline := rfl
@[simp] theorem State.setBorder_en (b : BitVec 6) : (s.setBorder b).en = s.en := rfl
@[simp] theorem State.setBorder_syncPend (b : BitVec 6) : (s.setBorder b).syncPend = s.syncPend := rfl
@[simp] theorem State.setBorder_pixPend (b : BitVec 6) : (s.setBorder b).pixPend = s.pixPend := rfl
@[simp] theorem State.setBorder_border (b : BitVec 6) : (s.setBorder b).border = b := rfl
@[simp] theorem State.setBorder_curPreset (b : BitVec 6) : (s.setBorder b).curPreset = s.curPreset := rfl
@[simp] theorem State.setBorder_curBase (b : BitVec 6) : (s.setBorder b).curBase = s.curBase := rfl
@[simp] theorem State.setBorder_pendPreset (b : BitVec 6) : (s.setBorder b).pendPreset = s.pendPreset := rfl
@[simp] theorem State.setBorder_pendBase (b : BitVec 6) : (s.setBorder b).pendBase = s.pendBase := rfl
@[simp] theorem State.setBorder_upd (b : BitVec 6) : (s.setBorder b).upd = s.upd := rfl
@[simp] theorem State.setBorder_tbl (b : BitVec 6) : (s.setBorder b).tbl = s.tbl.recolour b := rfl
@[simp] theorem State.setBorder_sch (b : BitVec 6) : (s.setBorder b).sch = s.sch := rfl
@[simp] theorem State.setBorder_pch (b : BitVec 6) : (s.setBorder b).pch = s.pch := rfl
@[simp] theorem State.setBorder_plat (b : BitVec 6) : (s.setBorder b).plat = s.plat := rfl
@[simp] theorem State.setBorder_stepsElements (b : BitVec 6) : (s.setBorder b).stepsElements = s.stepsElements := rfl
@[simp] theorem State.setBorder_out (b : BitVec 6) : (s.setBorder b).out = s.out := rfl
@[simp] theorem State.setBorder_inputs (b : BitVec 6) : (s.setBorder b).inputs = s.inputs := rfl

@[simp] theorem State.feed_vline : (s.feed).vline = s.vline := rfl
@[simp] theorem State.feed_frame : (s.feed).frame = s.frame := rfl
@[simp] theorem State.feed_bline : (s.feed).bline = BitVec.ofNat 9 (s.feedRow + 1) := rfl
@[simp] theorem State.feed_en : (s.feed).en = s.en := rfl
@[simp] theorem State.feed_syncPend : (s.feed).syncPend = s.syncPend := rfl
@[simp] theorem State.feed_pixPend : (s.feed).pixPend = false := rfl
@[simp] theorem State.feed_border : (s.feed).border = s.border := rfl
@[simp] theorem State.feed_curPreset : (s.feed).curPreset = s.curPreset := rfl
@[simp] theorem State.feed_curBase : (s.feed).curBase = s.curBase := rfl
@[simp] theorem State.feed_pendPreset : (s.feed).pendPreset = s.pendPreset := rfl
@[simp] theorem State.feed_pendBase : (s.feed).pendBase = s.pendBase := rfl
@[simp] theorem State.feed_upd : (s.feed).upd = s.upd := rfl
@[simp] theorem State.feed_tbl : (s.feed).tbl = s.tbl := rfl
@[simp] theorem State.feed_sch : (s.feed).sch = s.sch := rfl
@[simp] theorem State.feed_pch : (s.feed).pch = some ⟨s.rowAddr s.feedRow, s.curWidth, 0⟩ := rfl
@[simp] theorem State.feed_plat : (s.feed).plat = s.plat := rfl
@[simp] theorem State.feed_stepsElements : (s.feed).stepsElements = s.stepsElements := rfl
@[simp] theorem State.feed_out : (s.feed).out = .pixStart (s.rowAddr s.feedRow) s.curWidth := rfl
@[simp] theorem State.feed_inputs : (s.feed).inputs = s.inputs := rfl

@[simp] theorem State.doReset_vline : (s.doReset).vline = 1 := rfl
@[simp] theorem State.doReset_frame : (s.doReset).frame = 0 := rfl
@[simp] theorem State.doReset_bline : (s.doReset).bline = 0 := rfl
@[simp] theorem State.doReset_en : (s.doReset).en = false := rfl
@[simp] theorem State.doReset_syncPend : (s.doReset).syncPend = false := rfl
@[simp] theorem State.doReset_pixPend : (s.doReset).pixPend = false := rfl
@[simp] theorem State.doReset_border : (s.doReset).border = 0 := rfl
@[simp] theorem State.doReset_curPreset : (s.doReset).curPreset = Config.defaultPreset := rfl
@[simp] theorem State.doReset_curBase : (s.doReset).curBase = 0 := rfl
@[simp] theorem State.doReset_pendPreset : (s.doReset).pendPreset = Config.defaultPreset := rfl
@[simp] theorem State.doReset_pendBase : (s.doReset).pendBase = 0 := rfl
@[simp] theorem State.doReset_upd : (s.doReset).upd = false := rfl
@[simp] theorem State.doReset_tbl : (s.doReset).tbl = [] := rfl
@[simp] theorem State.doReset_sch : (s.doReset).sch = none := rfl
@[simp] theorem State.doReset_pch : (s.doReset).pch = none := rfl
@[simp] theorem State.doReset_plat : (s.doReset).plat = s.plat := rfl
@[simp] theorem State.doReset_stepsElements : (s.doReset).stepsElements = s.stepsElements := rfl
@[simp] theorem State.doReset_out : (s.doReset).out = .quiet := rfl
@[simp] theorem State.doReset_inputs : (s.doReset).inputs = s.inputs := rfl

@[simp] theorem State.commit_vline : (s.commit).vline = s.vline := by
  unfold State.commit
  split <;> rfl
@[simp] theorem State.commit_frame : (s.commit).frame = s.frame := by
  unfold State.commit
  split <;> rfl
@[simp] theorem State.commit_bline : (s.commit).bline = s.bline := by
  unfold State.commit
  split <;> rfl
@[simp] theorem State.commit_en : (s.commit).en = s.en := by
  unfold State.commit
  split <;> rfl
@[simp] theorem State.commit_syncPend : (s.commit).syncPend = s.syncPend := by
  unfold State.commit
  split <;> rfl
@[simp] theorem State.commit_pixPend : (s.commit).pixPend = s.pixPend := by
  unfold State.commit
  split <;> rfl
@[simp] theorem State.commit_border : (s.commit).border = s.border := by
  unfold State.commit
  split <;> rfl
@[simp] theorem State.commit_pendPreset : (s.commit).pendPreset = s.pendPreset := by
  unfold State.commit
  split <;> rfl
@[simp] theorem State.commit_pendBase : (s.commit).pendBase = s.pendBase := by
  unfold State.commit
  split <;> rfl
@[simp] theorem State.commit_tbl : (s.commit).tbl = s.tbl := by
  unfold State.commit
  split <;> rfl
@[simp] theorem State.commit_sch : (s.commit).sch = s.sch := by
  unfold State.commit
  split <;> rfl
@[simp] theorem State.commit_pch : (s.commit).pch = s.pch := by
  unfold State.commit
  split <;> rfl
@[simp] theorem State.commit_plat : (s.commit).plat = s.plat := by
  unfold State.commit
  split <;> rfl
@[simp] theorem State.commit_stepsElements : (s.commit).stepsElements = s.stepsElements := by
  unfold State.commit
  split <;> rfl
@[simp] theorem State.commit_out : (s.commit).out = s.out := by
  unfold State.commit
  split <;> rfl
@[simp] theorem State.commit_inputs : (s.commit).inputs = s.inputs := by
  unfold State.commit
  split <;> rfl

@[simp] theorem State.advanceLine_bline : (s.advanceLine).bline = s.bline := by
  unfold State.advanceLine
  split <;> simp
@[simp] theorem State.advanceLine_en : (s.advanceLine).en = s.en := by
  unfold State.advanceLine
  split <;> simp
@[simp] theorem State.advanceLine_syncPend : (s.advanceLine).syncPend = s.syncPend := by
  unfold State.advanceLine
  split <;> simp
@[simp] theorem State.advanceLine_pixPend : (s.advanceLine).pixPend = s.pixPend := by
  unfold State.advanceLine
  split <;> simp
@[simp] theorem State.advanceLine_border : (s.advanceLine).border = s.border := by
  unfold State.advanceLine
  split <;> simp
@[simp] theorem State.advanceLine_pendPreset : (s.advanceLine).pendPreset = s.pendPreset := by
  unfold State.advanceLine
  split <;> simp
@[simp] theorem State.advanceLine_pendBase : (s.advanceLine).pendBase = s.pendBase := by
  unfold State.advanceLine
  split <;> simp
@[simp] theorem State.advanceLine_tbl : (s.advanceLine).tbl = s.tbl := by
  unfold State.advanceLine
  split <;> simp
@[simp] theorem State.advanceLine_sch : (s.advanceLine).sch = s.sch := by
  unfold State.advanceLine
  split <;> simp
@[simp] theorem State.advanceLine_pch : (s.advanceLine).pch = s.pch := by
  unfold State.advanceLine
  split <;> simp
@[simp] theorem State.advanceLine_plat : (s.advanceLine).plat = s.plat := by
  unfold State.advanceLine
  split <;> simp
@[simp] theorem State.advanceLine_stepsElements : (s.advanceLine).stepsElements = s.stepsElements := by
  unfold State.advanceLine
  split <;> simp
@[simp] theorem State.advanceLine_out : (s.advanceLine).out = s.out := by
  unfold State.advanceLine
  split <;> simp
@[simp] theorem State.advanceLine_inputs : (s.advanceLine).inputs = s.inputs := by
  unfold State.advanceLine
  split <;> simp

@[simp] theorem State.enable_vline (d : Word) : (s.enable d).vline = s.vline := by
  unfold State.enable
  split <;> rfl
@[simp] theorem State.enable_frame (d : Word) : (s.enable d).frame = s.frame := by
  unfold State.enable
  split <;> rfl
@[simp] theorem State.enable_bline (d : Word) : (s.enable d).bline = s.bline := by
  unfold State.enable
  split <;> rfl
@[simp] theorem State.enable_border (d : Word) : (s.enable d).border = s.border := by
  unfold State.enable
  split <;> rfl
@[simp] theorem State.enable_curPreset (d : Word) : (s.enable d).curPreset = s.curPreset := by
  unfold State.enable
  split <;> rfl
@[simp] theorem State.enable_curBase (d : Word) : (s.enable d).curBase = s.curBase := by
  unfold State.enable
  split <;> rfl
@[simp] theorem State.enable_pendPreset (d : Word) : (s.enable d).pendPreset = s.pendPreset := by
  unfold State.enable
  split <;> rfl
@[simp] theorem State.enable_pendBase (d : Word) : (s.enable d).pendBase = s.pendBase := by
  unfold State.enable
  split <;> rfl
@[simp] theorem State.enable_upd (d : Word) : (s.enable d).upd = s.upd := by
  unfold State.enable
  split <;> rfl
@[simp] theorem State.enable_tbl (d : Word) : (s.enable d).tbl = s.tbl := by
  unfold State.enable
  split <;> rfl
@[simp] theorem State.enable_sch (d : Word) : (s.enable d).sch = s.sch := by
  unfold State.enable
  split <;> rfl
@[simp] theorem State.enable_pch (d : Word) : (s.enable d).pch = s.pch := by
  unfold State.enable
  split <;> rfl
@[simp] theorem State.enable_plat (d : Word) : (s.enable d).plat = s.plat := by
  unfold State.enable
  split <;> rfl
@[simp] theorem State.enable_stepsElements (d : Word) : (s.enable d).stepsElements = s.stepsElements := by
  unfold State.enable
  split <;> rfl
@[simp] theorem State.enable_out (d : Word) : (s.enable d).out = s.out := by
  unfold State.enable
  split <;> rfl
@[simp] theorem State.enable_inputs (d : Word) : (s.enable d).inputs = s.inputs := by
  unfold State.enable
  split <;> rfl

@[simp] theorem State.setPreset_vline (p : Preset) : (s.setPreset p).vline = s.vline := by
  unfold State.setPreset
  split <;> rfl
@[simp] theorem State.setPreset_frame (p : Preset) : (s.setPreset p).frame = s.frame := by
  unfold State.setPreset
  split <;> rfl
@[simp] theorem State.setPreset_bline (p : Preset) : (s.setPreset p).bline = s.bline := by
  unfold State.setPreset
  split <;> rfl
@[simp] theorem State.setPreset_en (p : Preset) : (s.setPreset p).en = s.en := by
  unfold State.setPreset
  split <;> rfl
@[simp] theorem State.setPreset_syncPend (p : Preset) : (s.setPreset p).syncPend = s.syncPend := by
  unfold State.setPreset
  split <;> rfl
@[simp] theorem State.setPreset_pixPend (p : Preset) : (s.setPreset p).pixPend = s.pixPend := by
  unfold State.setPreset
  split <;> rfl
@[simp] theorem State.setPreset_border (p : Preset) : (s.setPreset p).border = s.border := by
  unfold State.setPreset
  split <;> rfl
@[simp] theorem State.setPreset_curBase (p : Preset) : (s.setPreset p).curBase = s.curBase := by
  unfold State.setPreset
  split <;> rfl
@[simp] theorem State.setPreset_pendBase (p : Preset) : (s.setPreset p).pendBase = s.pendBase := by
  unfold State.setPreset
  split <;> rfl
@[simp] theorem State.setPreset_tbl (p : Preset) : (s.setPreset p).tbl = s.tbl := by
  unfold State.setPreset
  split <;> rfl
@[simp] theorem State.setPreset_sch (p : Preset) : (s.setPreset p).sch = s.sch := by
  unfold State.setPreset
  split <;> rfl
@[simp] theorem State.setPreset_pch (p : Preset) : (s.setPreset p).pch = s.pch := by
  unfold State.setPreset
  split <;> rfl
@[simp] theorem State.setPreset_plat (p : Preset) : (s.setPreset p).plat = s.plat := by
  unfold State.setPreset
  split <;> rfl
@[simp] theorem State.setPreset_stepsElements (p : Preset) : (s.setPreset p).stepsElements = s.stepsElements := by
  unfold State.setPreset
  split <;> rfl
@[simp] theorem State.setPreset_out (p : Preset) : (s.setPreset p).out = s.out := by
  unfold State.setPreset
  split <;> rfl
@[simp] theorem State.setPreset_inputs (p : Preset) : (s.setPreset p).inputs = s.inputs := by
  unfold State.setPreset
  split <;> rfl

@[simp] theorem State.setBase_vline (a : Word) : (s.setBase a).vline = s.vline := by
  unfold State.setBase
  split <;> rfl
@[simp] theorem State.setBase_frame (a : Word) : (s.setBase a).frame = s.frame := by
  unfold State.setBase
  split <;> rfl
@[simp] theorem State.setBase_bline (a : Word) : (s.setBase a).bline = s.bline := by
  unfold State.setBase
  split <;> rfl
@[simp] theorem State.setBase_en (a : Word) : (s.setBase a).en = s.en := by
  unfold State.setBase
  split <;> rfl
@[simp] theorem State.setBase_syncPend (a : Word) : (s.setBase a).syncPend = s.syncPend := by
  unfold State.setBase
  split <;> rfl
@[simp] theorem State.setBase_pixPend (a : Word) : (s.setBase a).pixPend = s.pixPend := by
  unfold State.setBase
  split <;> rfl
@[simp] theorem State.setBase_border (a : Word) : (s.setBase a).border = s.border := by
  unfold State.setBase
  split <;> rfl
@[simp] theorem State.setBase_curPreset (a : Word) : (s.setBase a).curPreset = s.curPreset := by
  unfold State.setBase
  split <;> rfl
@[simp] theorem State.setBase_pendPreset (a : Word) : (s.setBase a).pendPreset = s.pendPreset := by
  unfold State.setBase
  split <;> rfl
@[simp] theorem State.setBase_tbl (a : Word) : (s.setBase a).tbl = s.tbl := by
  unfold State.setBase
  split <;> rfl
@[simp] theorem State.setBase_sch (a : Word) : (s.setBase a).sch = s.sch := by
  unfold State.setBase
  split <;> rfl
@[simp] theorem State.setBase_pch (a : Word) : (s.setBase a).pch = s.pch := by
  unfold State.setBase
  split <;> rfl
@[simp] theorem State.setBase_plat (a : Word) : (s.setBase a).plat = s.plat := by
  unfold State.setBase
  split <;> rfl
@[simp] theorem State.setBase_stepsElements (a : Word) : (s.setBase a).stepsElements = s.stepsElements := by
  unfold State.setBase
  split <;> rfl
@[simp] theorem State.setBase_out (a : Word) : (s.setBase a).out = s.out := by
  unfold State.setBase
  split <;> rfl
@[simp] theorem State.setBase_inputs (a : Word) : (s.setBase a).inputs = s.inputs := by
  unfold State.setBase
  split <;> rfl

/-- R106: a commit installs the pending pair and clears UPD; without an update waiting it does nothing. -/
theorem State.commit_of_upd (h : s.upd = true) :
    s.commit = { s with curPreset := s.pendPreset, curBase := s.pendBase, upd := false } := if_pos h

theorem State.commit_of_not_upd (h : s.upd = false) : s.commit = s := if_neg (by simp [h])

@[simp] theorem State.commit_upd : s.commit.upd = false := by
  cases h : s.upd
  · rw [State.commit_of_not_upd s h, h]
  · rw [State.commit_of_upd s h]

/-- R103: the frame boundary is a VLINE of 312 or more. -/
theorem State.atFrameBoundary_iff : s.atFrameBoundary = true ↔ 312 ≤ s.vline.toNat := by
  simp [State.atFrameBoundary, Config.linesPerFrame, Nat.succ_le_iff]

theorem State.advanceLine_of_boundary (h : s.atFrameBoundary = true) :
    s.advanceLine = { s with vline := 1, frame := BitVec.ofNat 32 (s.frame.toNat + 1) }.commit := if_pos h

theorem State.advanceLine_within (h : s.atFrameBoundary = false) :
    s.advanceLine = { s with vline := BitVec.ofNat 9 (s.vline.toNat + 1) } := if_neg (by simp [h])

/-- R122: what enable can do. -/
theorem State.enable_cases (d : Word) :
    (d.getLsbD 0 = true ∧ s.en = false ∧ s.enable d = { s with en := true, syncPend := true, pixPend := true }) ∨
    ((d.getLsbD 0 = false ∨ s.en = true) ∧ s.enable d = s) := by
  unfold State.enable enableBit
  split
  · rename_i h
    exact .inl ⟨h.1, h.2, rfl⟩
  · rename_i h
    refine .inr ⟨?_, rfl⟩
    cases hd : d.getLsbD 0 <;> simp_all

/-- R128: what a MODE write does, by EN. -/
theorem State.setPreset_disabled (p : Preset) (h : s.en = false) :
    s.setPreset p = { s with curPreset := p, pendPreset := p } := if_neg (by simp [h])

theorem State.setPreset_enabled (p : Preset) (h : s.en = true) :
    s.setPreset p = { s with pendPreset := p, upd := true } := if_pos h

/-- R129: what an FB_BASE write does, by EN. -/
theorem State.setBase_disabled (a : Word) (h : s.en = false) :
    s.setBase a = { s with curBase := a, pendBase := a } := if_neg (by simp [h])

theorem State.setBase_enabled (a : Word) (h : s.en = true) :
    s.setBase a = { s with pendBase := a, upd := true } := if_pos h

/-- R149: what an enabled SYNC_DONE finds. -/
theorem State.syncDoneEnabled_iff :
    s.syncDoneEnabled = true ↔ ∃ x, s.sch = some x ∧ (s.stepsElements = true → x.done = x.count) := by
  unfold State.syncDoneEnabled State.takenAsComplete Transfer.complete
  cases s.sch <;> cases s.stepsElements <;> simp

/-- R151: what an enabled PIX_DONE finds. -/
theorem State.pixDoneEnabled_iff :
    s.pixDoneEnabled = true ↔ ∃ x, s.pch = some x ∧ (s.stepsElements = true → x.done = x.count) := by
  unfold State.pixDoneEnabled State.takenAsComplete Transfer.complete
  cases s.pch <;> cases s.stepsElements <;> simp

/-- R149: a completion comes only to a busy channel. -/
theorem State.schBusy_of_syncDoneEnabled (h : s.syncDoneEnabled = true) : s.schBusy = true := by
  obtain ⟨x, hx, _⟩ := s.syncDoneEnabled_iff.mp h
  simp [State.schBusy, hx]

/-- R151: a completion comes only to a busy channel. -/
theorem State.pchBusy_of_pixDoneEnabled (h : s.pixDoneEnabled = true) : s.pchBusy = true := by
  obtain ⟨x, hx, _⟩ := s.pixDoneEnabled_iff.mp h
  simp [State.pchBusy, hx]

/-- R103: DISPATCH within a frame. -/
theorem State.dispatch_within (h : s.vline.toNat < 312) :
    s.dispatch = { s with
      sch := some ⟨tableAddr s.plat (classify s.vline), 32, 0⟩, syncPend := false
      out := .syncStart (tableAddr s.plat (classify s.vline)) 32, vline := BitVec.ofNat 9 (s.vline.toNat + 1) } := by
  have hb : (s.startSync (tableAddr s.plat (classify s.vline))).atFrameBoundary = false := by
    rw [Bool.eq_false_iff]
    exact fun e => absurd ((State.atFrameBoundary_iff _).mp e) (Nat.not_le.mpr h)
  unfold State.dispatch
  rw [State.advanceLine_within _ hb]
  rfl

/-- R103, R105: DISPATCH at the frame boundary without an update waiting. -/
theorem State.dispatch_wrap (h : 312 ≤ s.vline.toNat) (hu : s.upd = false) :
    s.dispatch = { s with
      sch := some ⟨tableAddr s.plat (classify s.vline), 32, 0⟩, syncPend := false
      out := .syncStart (tableAddr s.plat (classify s.vline)) 32, vline := 1, frame := BitVec.ofNat 32 (s.frame.toNat + 1) } := by
  unfold State.dispatch
  rw [State.advanceLine_of_boundary (s.startSync _) ((State.atFrameBoundary_iff (s.startSync _)).mpr h), State.commit_of_not_upd _ (by exact hu)]
  rfl

/-- R103, R106: DISPATCH at the frame boundary with the commit. -/
theorem State.dispatch_commit (h : 312 ≤ s.vline.toNat) (hu : s.upd = true) :
    s.dispatch = { s with
      sch := some ⟨tableAddr s.plat (classify s.vline), 32, 0⟩, syncPend := false
      out := .syncStart (tableAddr s.plat (classify s.vline)) 32, vline := 1, frame := BitVec.ofNat 32 (s.frame.toNat + 1)
      curPreset := s.pendPreset, curBase := s.pendBase, upd := false } := by
  unfold State.dispatch
  rw [State.advanceLine_of_boundary (s.startSync _) ((State.atFrameBoundary_iff (s.startSync _)).mpr h), State.commit_of_upd _ (by exact hu)]
  rfl

/-- R103: what DISPATCH can do, said once. -/
theorem State.dispatch_cases :
    (s.vline.toNat < 312 ∧ s.dispatch = { s with
      sch := some ⟨tableAddr s.plat (classify s.vline), 32, 0⟩, syncPend := false
      out := .syncStart (tableAddr s.plat (classify s.vline)) 32, vline := BitVec.ofNat 9 (s.vline.toNat + 1) }) ∨
    (312 ≤ s.vline.toNat ∧ s.upd = false ∧ s.dispatch = { s with
      sch := some ⟨tableAddr s.plat (classify s.vline), 32, 0⟩, syncPend := false
      out := .syncStart (tableAddr s.plat (classify s.vline)) 32, vline := 1, frame := BitVec.ofNat 32 (s.frame.toNat + 1) }) ∨
    (312 ≤ s.vline.toNat ∧ s.upd = true ∧ s.dispatch = { s with
      sch := some ⟨tableAddr s.plat (classify s.vline), 32, 0⟩, syncPend := false
      out := .syncStart (tableAddr s.plat (classify s.vline)) 32, vline := 1, frame := BitVec.ofNat 32 (s.frame.toNat + 1)
      curPreset := s.pendPreset, curBase := s.pendBase, upd := false }) := by
  rcases Nat.lt_or_ge s.vline.toNat 312 with h | h
  · exact .inl ⟨h, s.dispatch_within h⟩
  · rcases Bool.eq_false_or_eq_true s.upd with hu | hu
    · exact .inr (.inr ⟨h, hu, s.dispatch_commit h hu⟩)
    · exact .inr (.inl ⟨h, hu, s.dispatch_wrap h hu⟩)

end

end Sys2Proof.Machine
end

