-- ==== Sys2Proof/Laws/Exec.lean ====
section
/-! SUPPORT. What an operation and a stimulus can do, said once: every next state is one of the cases below. Later proofs about all operations cite these and unfold no meaning. -/

namespace Sys2Proof.Machine

/-- The operations that only answer: the reads, the ignored writes, the BUSERR forms, and a border write, which may be
rejected (R127). -/
def OnlyAnswers (i : Instr) : Prop :=
  (∀ d, i ≠ .wrCtrl d ∧ i ≠ .wrMode d ∧ i ≠ .wrFbBase d) ∧
    i ≠ .evSyncDone ∧ i ≠ .evPixDone ∧ i ≠ .evDispatch ∧ i ≠ .evFeed ∧ i ≠ .evReset

/-- Everything an operation that answers a next state can have done. -/
theorem exec_cases {i : Instr} {s t : State} (h : exec i s = .next t) :
    (∃ o, OnlyAnswers i ∧ t = s.present o) ∨
    (∃ d, i = .wrCtrl d ∧ t = (s.enable d).present .writeDone) ∨
    (∃ d b, i = .wrBorder d ∧ borderColour s.plat d = some b ∧ t = (s.setBorder b).present .writeDone) ∨
    (∃ d, i = .wrMode d ∧ t = (s.setPreset (presetOfDatum d)).present .writeDone) ∨
    (∃ d, i = .wrFbBase d ∧ t = (s.setBase d).present .writeDone) ∨
    (i = .evSyncDone ∧ s.syncDoneEnabled = true ∧ t = s.completeSync) ∨
    (i = .evPixDone ∧ s.pixDoneEnabled = true ∧ t = s.completePix) ∨
    (i = .evDispatch ∧ s.dispatchEnabled = true ∧ t = s.dispatch) ∨
    (i = .evFeed ∧ s.feedEnabled = true ∧ t = s.feed) ∨
    (i = .evReset ∧ t = s.doReset) := by
  have answer : ∀ {u : State} {o : Output}, Host.Outcome.next (φ := Fault) (ρ := Refusal) (u.present o) = .next t →
      t = u.present o := fun e => by cases e; rfl
  cases i with
  | wrCtrl d => exact .inr (.inl ⟨d, rfl, answer h⟩)
  | wrBorder d =>
    change execWrBorder d s = _ at h
    unfold execWrBorder at h
    cases hb : borderColour s.plat d with
    | none => rw [hb] at h; exact .inl ⟨_, by simp [OnlyAnswers], answer h⟩
    | some b => rw [hb] at h; exact .inr (.inr (.inl ⟨d, b, rfl, hb, answer h⟩))
  | wrMode d => exact .inr (.inr (.inr (.inl ⟨d, rfl, answer h⟩)))
  | wrFbBase d => exact .inr (.inr (.inr (.inr (.inl ⟨d, rfl, answer h⟩))))
  | evSyncDone =>
    change execEvSyncDone s = _ at h
    unfold execEvSyncDone at h
    split at h <;> cases h
    exact .inr (.inr (.inr (.inr (.inr (.inl ⟨rfl, ‹_›, rfl⟩)))))
  | evPixDone =>
    change execEvPixDone s = _ at h
    unfold execEvPixDone at h
    split at h <;> cases h
    exact .inr (.inr (.inr (.inr (.inr (.inr (.inl ⟨rfl, ‹_›, rfl⟩))))))
  | evDispatch =>
    change execEvDispatch s = _ at h
    unfold execEvDispatch at h
    split at h <;> cases h
    exact .inr (.inr (.inr (.inr (.inr (.inr (.inr (.inl ⟨rfl, ‹_›, rfl⟩)))))))
  | evFeed =>
    change execEvFeed s = _ at h
    unfold execEvFeed at h
    split at h <;> cases h
    exact .inr (.inr (.inr (.inr (.inr (.inr (.inr (.inr (.inl ⟨rfl, ‹_›, rfl⟩))))))))
  | evReset =>
    cases h
    exact .inr (.inr (.inr (.inr (.inr (.inr (.inr (.inr (.inr ⟨rfl, rfl⟩))))))))
  | illegalClass11 _ => cases h
  | illegalEv _ => cases h
  | illegalSz11 _ _ => cases h
  | _ => exact .inl ⟨_, by simp [OnlyAnswers], answer h⟩

/-- R81, R103: DISPATCH when it is enabled. -/
theorem exec_evDispatch {s : State} (h : s.dispatchEnabled = true) : exec .evDispatch s = .next s.dispatch := if_pos h

/-- R81, R137: FEED when it is enabled. -/
theorem exec_evFeed {s : State} (h : s.feedEnabled = true) : exec .evFeed s = .next s.feed := if_pos h

/-- R81, R149: SYNC_DONE when it is enabled. -/
theorem exec_evSyncDone {s : State} (h : s.syncDoneEnabled = true) : exec .evSyncDone s = .next s.completeSync := if_pos h

/-- R81, R151: PIX_DONE when it is enabled. -/
theorem exec_evPixDone {s : State} (h : s.pixDoneEnabled = true) : exec .evPixDone s = .next s.completePix := if_pos h

/-- What a next element to read is. -/
theorem nextElement_eq_ok {c : Channel} {x : Option Transfer} {b : Bool} {t : Transfer} :
    nextElement c x b = .ok t ↔ b = true ∧ x = some t ∧ t.done < t.count := by
  cases b with
  | false => simp [nextElement]
  | true =>
    cases x with
    | none => simp [nextElement]
    | some y =>
      simp only [nextElement, if_true, true_and, Option.some.injEq]
      split <;> rename_i hy
      · exact ⟨fun e => (by cases e; exact ⟨rfl, hy⟩), fun e => by rw [e.1]⟩
      · exact ⟨fun e => (by cases e), fun e => absurd (e.1 ▸ e.2) hy⟩

/-- Everything an element read of the sync channel that answers a next state can have done. -/
theorem syncElementRead_cases {s t : State} (h : syncElementRead s = .next t) :
    ∃ x, s.stepsElements = true ∧ s.sch = some x ∧ x.done < x.count ∧
      0x100 ≤ windowOffset s.plat x.nextAddr ∧ windowOffset s.plat x.nextAddr ≤ 0x19F ∧
      t = { s with sch := some x.advance, out := .syncCode (s.tbl.read (windowOffset s.plat x.nextAddr - 0x100)) } := by
  unfold syncElementRead at h
  split at h
  · cases h
  · rename_i x hx
    obtain ⟨hb, hs, hd⟩ := nextElement_eq_ok.mp hx
    split at h
    · rename_i hw
      cases h
      exact ⟨x, hb, hs, hd, hw.1, hw.2, rfl⟩
    · cases h

/-- Everything an element read of the picture channel that answers a next state can have done. -/
theorem pixElementRead_cases {s t : State} {v : Byte} (h : pixElementRead v s = .next t) :
    ∃ x, s.stepsElements = true ∧ s.pch = some x ∧ x.done < x.count ∧
      t = { s with pch := some x.advance, out := .pixel x.nextAddr v } := by
  unfold pixElementRead at h
  split at h
  · cases h
  · rename_i x hx
    obtain ⟨hb, hs, hd⟩ := nextElement_eq_ok.mp hx
    cases h
    exact ⟨x, hb, hs, hd, rfl⟩

/-- What one stimulus that is taken is: an operation, or an element read. -/
theorem take_cases {r : Stimulus} {s t : State} (h : take r s = .next t) :
    (∃ op d, r = .access op d ∧ exec (decode ⟨op, d⟩) s = .next t) ∨
    (r = .syncRead ∧ syncElementRead s = .next t) ∨ (∃ v, r = .pixRead v ∧ pixElementRead v s = .next t) := by
  cases r with
  | access op d => exact .inl ⟨op, d, rfl, h⟩
  | syncRead => exact .inr (.inl ⟨rfl, h⟩)
  | pixRead v => exact .inr (.inr ⟨v, rfl, h⟩)

/-- What a step is: the next stimulus, or the block's own FEED or DISPATCH, or nothing. -/
theorem step_cases {s t : State} (h : step s = .next t) :
    (∃ r rest, s.inputs = r :: rest ∧ take r { s with inputs := rest } = .next t) ∨
    (s.inputs = [] ∧ exec .evFeed s = .next t) ∨
    (s.inputs = [] ∧ exec .evDispatch s = .next t) ∨
    (s.inputs = [] ∧ t = s.present .quiet) := by
  unfold step at h
  split at h
  · rename_i hi
    unfold ownStep at h
    split at h
    · exact .inr (.inl ⟨hi, h⟩)
    · split at h
      · exact .inr (.inr (.inl ⟨hi, h⟩))
      · cases h
        exact .inr (.inr (.inr ⟨hi, rfl⟩))
  · exact .inl ⟨_, _, ‹_›, h⟩

/-- A run of stimuli in two parts. -/
theorem runStimuli_append (l₁ l₂ : List Stimulus) (s : State) :
    runStimuli (l₁ ++ l₂) s =
      match runStimuli l₁ s with
      | .next t => runStimuli l₂ t
      | .fault f => .fault f
      | .refused r => .refused r := by
  induction l₁ generalizing s with
  | nil => rfl
  | cons r l₁ ih =>
    simp only [List.cons_append, runStimuli]
    cases take r s with
    | next t => exact ih t
    | fault f => rfl
    | refused f => rfl

/-- A run that goes through its first part goes on with the second. -/
theorem runStimuli_append_of_next {l₁ l₂ : List Stimulus} {s t : State} (h : runStimuli l₁ s = .next t) :
    runStimuli (l₁ ++ l₂) s = runStimuli l₂ t := by
  rw [runStimuli_append, h]

/-- A run's first stimulus. -/
theorem runStimuli_cons_next {r : Stimulus} {l : List Stimulus} {s t : State} (h : runStimuli (r :: l) s = .next t) :
    ∃ u, take r s = .next u ∧ runStimuli l u = .next t := by
  unfold runStimuli at h
  split at h
  · exact ⟨_, ‹_›, h⟩
  · cases h
  · cases h

end Sys2Proof.Machine
end

