-- ==== Sys2Proof/Laws/Memory.lean ====
section
/-! SUPPORT. The laws of the table memory: a read after a write, the canonical form kept by every operation, and what `recolour` does to each byte. -/

namespace Sys2Proof.Machine

@[simp] theorem Memory.read_nil (i : Nat) : Memory.read [] i = resetCode i := rfl

theorem Memory.read_cons (i j : Nat) (c : Byte) (m : Memory) :
    Memory.read ((j, c) :: m) i = if i = j then c else Memory.read m i := rfl

/-- An index below every listed one reads its reset contents. -/
theorem Memory.read_below {m : Memory} {i : Nat} (h : ∀ c ∈ m, i < c.1) : m.read i = resetCode i := by
  induction m with
  | nil => rfl
  | cons a m ih =>
    have hne : i ≠ a.1 := Nat.ne_of_lt (h a (by simp))
    rw [show a = (a.1, a.2) from rfl, Memory.read_cons, if_neg hne]
    exact ih fun c hc => h c (by simp [hc])

/-- An index no entry lists reads its reset contents. -/
theorem Memory.read_unlisted {m : Memory} {i : Nat} (h : ∀ c ∈ m, c.1 ≠ i) : m.read i = resetCode i := by
  induction m with
  | nil => rfl
  | cons a m ih =>
    rw [show a = (a.1, a.2) from rfl, Memory.read_cons, if_neg (fun e => h a (by simp) e.symm)]
    exact ih fun c hc => h c (by simp [hc])

/-- What a write's front cell reads as, over a memory that lists nothing at its index. -/
theorem Memory.read_front {m : Memory} {i j : Nat} {c : Byte} (h : ∀ d ∈ m, d.1 ≠ i) :
    (Memory.cons i c m).read j = if j = i then c else m.read j := by
  unfold Memory.cons
  split
  · rename_i hc
    split
    · rename_i hji
      subst hji hc
      exact Memory.read_unlisted h
    · rfl
  · exact Memory.read_cons j i c m

/-- A read after a write: the value written at its index, and every other byte as before. -/
theorem Memory.read_write {m : Memory} (h : m.wf) (i j : Nat) (c : Byte) :
    (m.write i c).read j = if j = i then c else m.read j := by
  induction m with
  | nil => exact Memory.read_front (by simp)
  | cons a m ih =>
    obtain ⟨hp, hd⟩ := h
    obtain ⟨ha, hm⟩ := List.pairwise_cons.mp hp
    rw [show a = (a.1, a.2) from rfl]
    unfold Memory.write
    split
    · rename_i hlt
      refine Memory.read_front fun d hd' => ?_
      rcases List.mem_cons.mp hd' with rfl | h'
      · exact Nat.ne_of_gt hlt
      · exact Nat.ne_of_gt (hlt.trans (ha d h'))
    · split
      · rename_i _ he
        subst he
        rw [Memory.read_front fun d h' => Nat.ne_of_gt (ha d h'), Memory.read_cons]
        split <;> simp_all
      · rename_i _ hne
        rw [Memory.read_cons, ih ⟨hm, fun d h' => hd d (by simp [h'])⟩, Memory.read_cons]
        by_cases hji : j = i
        · subst hji
          simp [hne]
        · simp [hji]

/-- Every entry of a memory after a write is an old one or the one written, which is no reset content. -/
theorem Memory.mem_write {m : Memory} {i : Nat} {c : Byte} {d : Host.Cell} (h : d ∈ m.write i c) :
    d ∈ m ∨ (d = (i, c) ∧ c ≠ resetCode i) := by
  have front : ∀ {m : Memory}, d ∈ Memory.cons i c m → d ∈ m ∨ (d = (i, c) ∧ c ≠ resetCode i) := by
    intro m hm
    unfold Memory.cons at hm
    split at hm
    · exact .inl hm
    · rename_i hc
      rcases List.mem_cons.mp hm with rfl | h'
      · exact .inr ⟨rfl, hc⟩
      · exact .inl h'
  induction m with
  | nil => exact front h
  | cons a m ih =>
    rw [show a = (a.1, a.2) from rfl] at h
    unfold Memory.write at h
    split at h
    · exact front h
    · split at h
      · exact (front h).imp (fun h' => List.mem_cons_of_mem _ h') id
      · rcases List.mem_cons.mp h with rfl | h'
        · exact .inl (by simp)
        · exact (ih h').imp (fun h' => List.mem_cons_of_mem _ h') id

/-- A write keeps the canonical form. -/
theorem Memory.write_wf {m : Memory} (h : m.wf) {i : Nat} (hi : i < Config.tableBytes) (c : Byte) : (m.write i c).wf := by
  refine ⟨?_, ?_⟩
  · have front : ∀ {m : Memory}, m.Pairwise (fun a b => a.1 < b.1) → (∀ d ∈ m, i < d.1) →
        (Memory.cons i c m).Pairwise (fun a b => a.1 < b.1) := by
      intro m hm hi
      unfold Memory.cons
      split
      · exact hm
      · exact List.pairwise_cons.mpr ⟨hi, hm⟩
    induction m with
    | nil => exact front List.Pairwise.nil (by simp)
    | cons a m ih =>
      obtain ⟨hp, hd⟩ := h
      obtain ⟨ha, hm⟩ := List.pairwise_cons.mp hp
      rw [show a = (a.1, a.2) from rfl]
      unfold Memory.write
      split
      · rename_i hlt
        refine front hp fun d hd' => ?_
        rcases List.mem_cons.mp hd' with rfl | h'
        · exact hlt
        · exact hlt.trans (ha d h')
      · split
        · rename_i _ he
          subst he
          exact front hm ha
        · rename_i hnl hne
          refine List.pairwise_cons.mpr ⟨fun d hd' => ?_, ih ⟨hm, fun d h' => hd d (by simp [h'])⟩⟩
          rcases Memory.mem_write hd' with h' | ⟨rfl, -⟩
          · exact ha d h'
          · show a.1 < i
            omega
  · intro d hd
    rcases Memory.mem_write hd with h' | ⟨rfl, hc⟩
    · exact h.2 d h'
    · exact ⟨hi, hc⟩

theorem Memory.wf_nil : Memory.wf [] := by simp [Memory.wf]

/-- Two memories in canonical form that read alike are equal. -/
theorem Memory.eq_of_read_eq {m n : Memory} (hm : m.wf) (hn : n.wf) (h : ∀ i, m.read i = n.read i) : m = n := by
  induction m generalizing n with
  | nil =>
    cases n with
    | nil => rfl
    | cons b n =>
      have := h b.1
      rw [show b = (b.1, b.2) from rfl, Memory.read_cons, if_pos rfl] at this
      exact absurd this.symm (hn.2 b (by simp)).2
  | cons a m ih =>
    obtain ⟨ha, hm'⟩ := List.pairwise_cons.mp hm.1
    have tailwf : ∀ {x : Host.Cell} {l : Memory}, Memory.wf (x :: l) → Memory.wf l :=
      fun w => ⟨(List.pairwise_cons.mp w.1).2, fun d h' => w.2 d (by simp [h'])⟩
    cases n with
    | nil =>
      have := h a.1
      rw [show a = (a.1, a.2) from rfl, Memory.read_cons, if_pos rfl] at this
      exact absurd this (hm.2 a (by simp)).2
    | cons b n =>
      obtain ⟨hb, hn'⟩ := List.pairwise_cons.mp hn.1
      have hab := h a.1
      have hba := h b.1
      rw [show a = (a.1, a.2) from rfl, show b = (b.1, b.2) from rfl] at hab hba
      simp only [Memory.read_cons, if_true] at hab hba
      have hidx : a.1 = b.1 := by
        rcases Nat.lt_trichotomy a.1 b.1 with hlt | he | hgt
        · rw [if_neg (Nat.ne_of_lt hlt),
            Memory.read_below fun d h' => hlt.trans (hb d h')] at hab
          exact absurd hab (hm.2 a (by simp)).2
        · exact he
        · rw [if_neg (Nat.ne_of_lt hgt),
            Memory.read_below fun d h' => hgt.trans (ha d h')] at hba
          exact absurd hba.symm (hn.2 b (by simp)).2
      have hval : a.2 = b.2 := by simpa [hidx] using hab
      have hcell : a = b := Prod.ext hidx hval
      subst hcell
      congr 1
      refine ih (tailwf hm) (tailwf hn) fun i => ?_
      by_cases hi : i = a.1
      · subst hi
        rw [Memory.read_below ha, Memory.read_below hb]
      · have := h i
        rw [show a = (a.1, a.2) from rfl, Memory.read_cons, Memory.read_cons, if_neg hi, if_neg hi] at this
        exact this

/-- One slot's rewrite: the slot's own byte becomes the new colour if it has the flag, every other byte stays. -/
theorem Memory.recolourSlot_read {m : Memory} (h : m.wf) (b : BitVec 6) (i j : Nat) :
    (Memory.recolourSlot b m i).read j = if j = i ∧ borderFlag (m.read i) then borderCode b else m.read j := by
  unfold Memory.recolourSlot
  split
  · rename_i hf
    rw [Memory.read_write h]
    simp [hf]
  · rename_i hf
    simp [hf]

theorem Memory.recolourSlot_wf {m : Memory} (h : m.wf) (b : BitVec 6) {i : Nat} (hi : i < Config.tableBytes) :
    (Memory.recolourSlot b m i).wf := by
  unfold Memory.recolourSlot
  split
  · exact Memory.write_wf h hi _
  · exact h

theorem borderTableIndexes_lt : ∀ i ∈ borderTableIndexes, i < Config.tableBytes := by decide

theorem mem_borderTableIndexes (i : Nat) : i ∈ borderTableIndexes ↔ 96 ≤ i ∧ i < 160 := by
  simp [borderTableIndexes, List.mem_range', Config.tableLen, Table.index]
  constructor
  · rintro ⟨j, hj, rfl⟩
    omega
  · rintro ⟨h1, h2⟩
    exact ⟨i - 96, by omega, by omega⟩

/-- The rewrite of a list of different slots. -/
theorem Memory.foldl_recolourSlot (b : BitVec 6) (l : List Nat) (hl : ∀ i ∈ l, i < Config.tableBytes) (hn : l.Nodup)
    (m : Memory) (h : m.wf) :
    (l.foldl (Memory.recolourSlot b) m).wf ∧
    ∀ j, (l.foldl (Memory.recolourSlot b) m).read j =
      if j ∈ l ∧ borderFlag (m.read j) then borderCode b else m.read j := by
  induction l generalizing m with
  | nil => exact ⟨h, fun j => by simp⟩
  | cons i l ih =>
    obtain ⟨hi, hn'⟩ := List.nodup_cons.mp hn
    obtain ⟨hw, hr⟩ := ih (fun x hx => hl x (by simp [hx])) hn' (Memory.recolourSlot b m i)
      (Memory.recolourSlot_wf h b (hl i (by simp)))
    refine ⟨hw, fun j => ?_⟩
    rw [List.foldl_cons, hr, Memory.recolourSlot_read h]
    by_cases hji : j = i
    · subst hji
      simp [hi]
    · simp [hji]

/-- R127: `recolour` gives every flagged slot of BD and AL the new colour and leaves every other byte. -/
theorem Memory.recolour_read {m : Memory} (h : m.wf) (b : BitVec 6) (j : Nat) :
    (m.recolour b).read j = if (96 ≤ j ∧ j < 160) ∧ borderFlag (m.read j) then borderCode b else m.read j := by
  have := (Memory.foldl_recolourSlot b _ borderTableIndexes_lt (by decide) m h).2 j
  simp only [mem_borderTableIndexes] at this
  exact this

theorem Memory.recolour_wf {m : Memory} (h : m.wf) (b : BitVec 6) : (m.recolour b).wf :=
  (Memory.foldl_recolourSlot b _ borderTableIndexes_lt (by decide) m h).1

end Sys2Proof.Machine
end

