-- ==== Sys2Proof/Laws/PerInstr.lean ====
section
/-! SUPPORT. Facts about every operation as syntax, one lemma per constructor of Instr. -/

/-- R69: CLASS of the row's format: HR 00, HW 01, EV 10; the illegal rows as the table gives them. -/
def Sys2Proof.Laws.EncodedClass.classOf : Sys2Proof.Instr → BitVec 2
  | .rdCtrl => 0b00
  | .rdStatus => 0b00
  | .rdVline => 0b00
  | .rdBline => 0b00
  | .rdFrame => 0b00
  | .rdBorder => 0b00
  | .rdMode => 0b00
  | .rdFbBase => 0b00
  | .rdFbPend => 0b00
  | .rdGeom => 0b00
  | .wrCtrl _ => 0b01
  | .wrStatus _ => 0b01
  | .wrVline _ => 0b01
  | .wrBline _ => 0b01
  | .wrFrame _ => 0b01
  | .wrBorder _ => 0b01
  | .wrMode _ => 0b01
  | .wrFbBase _ => 0b01
  | .wrFbPend _ => 0b01
  | .wrGeom _ => 0b01
  | .rdRsvr _ => 0b00
  | .wrRsvr _ _ => 0b01
  | .rdBTbl _ => 0b00
  | .rdHTbl _ => 0b00
  | .rdWTbl _ => 0b00
  | .wrBTbl _ _ => 0b01
  | .wrHTbl _ _ => 0b01
  | .wrWTbl _ _ => 0b01
  | .rdBRsv _ => 0b00
  | .rdHRsv _ => 0b00
  | .rdWRsv _ => 0b00
  | .wrBRsv _ _ => 0b01
  | .wrHRsv _ _ => 0b01
  | .wrWRsv _ _ => 0b01
  | .buserrMisalignedRdH _ => 0b00
  | .buserrMisalignedRdW _ => 0b00
  | .buserrWrongSizeRdB _ => 0b00
  | .buserrWrongSizeRdH _ => 0b00
  | .buserrMisalignedWrH _ _ => 0b01
  | .buserrMisalignedWrW _ _ => 0b01
  | .buserrWrongSizeWrB _ _ => 0b01
  | .buserrWrongSizeWrH _ _ => 0b01
  | .evSyncDone => 0b10
  | .evPixDone => 0b10
  | .evDispatch => 0b10
  | .evFeed => 0b10
  | .evReset => 0b10
  | .illegalClass11 _ => 0b11
  | .illegalEv _ => 0b10
  | .illegalSz11 write _ => if write then 0b01 else 0b00

/-- R69, R78 to R80: the encoded word has the CLASS of its row's format. -/
def Sys2Proof.Laws.EncodedClass.Statement (i : Sys2Proof.Instr) : Prop :=
  Sys2Proof.opClass (Sys2Proof.encode i).op = Sys2Proof.Laws.EncodedClass.classOf i

theorem Sys2Proof.Laws.EncodedClass.rdCtrl :
    Sys2Proof.Laws.EncodedClass.Statement (.rdCtrl) := Sys2Proof.opClass_hostWord _ _ _

theorem Sys2Proof.Laws.EncodedClass.rdStatus :
    Sys2Proof.Laws.EncodedClass.Statement (.rdStatus) := Sys2Proof.opClass_hostWord _ _ _

theorem Sys2Proof.Laws.EncodedClass.rdVline :
    Sys2Proof.Laws.EncodedClass.Statement (.rdVline) := Sys2Proof.opClass_hostWord _ _ _

theorem Sys2Proof.Laws.EncodedClass.rdBline :
    Sys2Proof.Laws.EncodedClass.Statement (.rdBline) := Sys2Proof.opClass_hostWord _ _ _

theorem Sys2Proof.Laws.EncodedClass.rdFrame :
    Sys2Proof.Laws.EncodedClass.Statement (.rdFrame) := Sys2Proof.opClass_hostWord _ _ _

theorem Sys2Proof.Laws.EncodedClass.rdBorder :
    Sys2Proof.Laws.EncodedClass.Statement (.rdBorder) := Sys2Proof.opClass_hostWord _ _ _

theorem Sys2Proof.Laws.EncodedClass.rdMode :
    Sys2Proof.Laws.EncodedClass.Statement (.rdMode) := Sys2Proof.opClass_hostWord _ _ _

theorem Sys2Proof.Laws.EncodedClass.rdFbBase :
    Sys2Proof.Laws.EncodedClass.Statement (.rdFbBase) := Sys2Proof.opClass_hostWord _ _ _

theorem Sys2Proof.Laws.EncodedClass.rdFbPend :
    Sys2Proof.Laws.EncodedClass.Statement (.rdFbPend) := Sys2Proof.opClass_hostWord _ _ _

theorem Sys2Proof.Laws.EncodedClass.rdGeom :
    Sys2Proof.Laws.EncodedClass.Statement (.rdGeom) := Sys2Proof.opClass_hostWord _ _ _

theorem Sys2Proof.Laws.EncodedClass.wrCtrl (wdata : Sys2Proof.Word) :
    Sys2Proof.Laws.EncodedClass.Statement (.wrCtrl wdata) := Sys2Proof.opClass_hostWord _ _ _

theorem Sys2Proof.Laws.EncodedClass.wrStatus (wdata : Sys2Proof.Word) :
    Sys2Proof.Laws.EncodedClass.Statement (.wrStatus wdata) := Sys2Proof.opClass_hostWord _ _ _

theorem Sys2Proof.Laws.EncodedClass.wrVline (wdata : Sys2Proof.Word) :
    Sys2Proof.Laws.EncodedClass.Statement (.wrVline wdata) := Sys2Proof.opClass_hostWord _ _ _

theorem Sys2Proof.Laws.EncodedClass.wrBline (wdata : Sys2Proof.Word) :
    Sys2Proof.Laws.EncodedClass.Statement (.wrBline wdata) := Sys2Proof.opClass_hostWord _ _ _

theorem Sys2Proof.Laws.EncodedClass.wrFrame (wdata : Sys2Proof.Word) :
    Sys2Proof.Laws.EncodedClass.Statement (.wrFrame wdata) := Sys2Proof.opClass_hostWord _ _ _

theorem Sys2Proof.Laws.EncodedClass.wrBorder (wdata : Sys2Proof.Word) :
    Sys2Proof.Laws.EncodedClass.Statement (.wrBorder wdata) := Sys2Proof.opClass_hostWord _ _ _

theorem Sys2Proof.Laws.EncodedClass.wrMode (wdata : Sys2Proof.Word) :
    Sys2Proof.Laws.EncodedClass.Statement (.wrMode wdata) := Sys2Proof.opClass_hostWord _ _ _

theorem Sys2Proof.Laws.EncodedClass.wrFbBase (wdata : Sys2Proof.Word) :
    Sys2Proof.Laws.EncodedClass.Statement (.wrFbBase wdata) := Sys2Proof.opClass_hostWord _ _ _

theorem Sys2Proof.Laws.EncodedClass.wrFbPend (wdata : Sys2Proof.Word) :
    Sys2Proof.Laws.EncodedClass.Statement (.wrFbPend wdata) := Sys2Proof.opClass_hostWord _ _ _

theorem Sys2Proof.Laws.EncodedClass.wrGeom (wdata : Sys2Proof.Word) :
    Sys2Proof.Laws.EncodedClass.Statement (.wrGeom wdata) := Sys2Proof.opClass_hostWord _ _ _

theorem Sys2Proof.Laws.EncodedClass.rdRsvr (off : Sys2Proof.Offset) :
    Sys2Proof.Laws.EncodedClass.Statement (.rdRsvr off) := Sys2Proof.opClass_hostWord _ _ _

theorem Sys2Proof.Laws.EncodedClass.wrRsvr (off : Sys2Proof.Offset) (wdata : Sys2Proof.Word) :
    Sys2Proof.Laws.EncodedClass.Statement (.wrRsvr off wdata) := Sys2Proof.opClass_hostWord _ _ _

theorem Sys2Proof.Laws.EncodedClass.rdBTbl (off : Sys2Proof.Offset) :
    Sys2Proof.Laws.EncodedClass.Statement (.rdBTbl off) := Sys2Proof.opClass_hostWord _ _ _

theorem Sys2Proof.Laws.EncodedClass.rdHTbl (off : Sys2Proof.Offset) :
    Sys2Proof.Laws.EncodedClass.Statement (.rdHTbl off) := Sys2Proof.opClass_hostWord _ _ _

theorem Sys2Proof.Laws.EncodedClass.rdWTbl (off : Sys2Proof.Offset) :
    Sys2Proof.Laws.EncodedClass.Statement (.rdWTbl off) := Sys2Proof.opClass_hostWord _ _ _

theorem Sys2Proof.Laws.EncodedClass.wrBTbl (off : Sys2Proof.Offset) (wdata : Sys2Proof.Word) :
    Sys2Proof.Laws.EncodedClass.Statement (.wrBTbl off wdata) := Sys2Proof.opClass_hostWord _ _ _

theorem Sys2Proof.Laws.EncodedClass.wrHTbl (off : Sys2Proof.Offset) (wdata : Sys2Proof.Word) :
    Sys2Proof.Laws.EncodedClass.Statement (.wrHTbl off wdata) := Sys2Proof.opClass_hostWord _ _ _

theorem Sys2Proof.Laws.EncodedClass.wrWTbl (off : Sys2Proof.Offset) (wdata : Sys2Proof.Word) :
    Sys2Proof.Laws.EncodedClass.Statement (.wrWTbl off wdata) := Sys2Proof.opClass_hostWord _ _ _

theorem Sys2Proof.Laws.EncodedClass.rdBRsv (off : Sys2Proof.Offset) :
    Sys2Proof.Laws.EncodedClass.Statement (.rdBRsv off) := Sys2Proof.opClass_hostWord _ _ _

theorem Sys2Proof.Laws.EncodedClass.rdHRsv (off : Sys2Proof.Offset) :
    Sys2Proof.Laws.EncodedClass.Statement (.rdHRsv off) := Sys2Proof.opClass_hostWord _ _ _

theorem Sys2Proof.Laws.EncodedClass.rdWRsv (off : Sys2Proof.Offset) :
    Sys2Proof.Laws.EncodedClass.Statement (.rdWRsv off) := Sys2Proof.opClass_hostWord _ _ _

theorem Sys2Proof.Laws.EncodedClass.wrBRsv (off : Sys2Proof.Offset) (wdata : Sys2Proof.Word) :
    Sys2Proof.Laws.EncodedClass.Statement (.wrBRsv off wdata) := Sys2Proof.opClass_hostWord _ _ _

theorem Sys2Proof.Laws.EncodedClass.wrHRsv (off : Sys2Proof.Offset) (wdata : Sys2Proof.Word) :
    Sys2Proof.Laws.EncodedClass.Statement (.wrHRsv off wdata) := Sys2Proof.opClass_hostWord _ _ _

theorem Sys2Proof.Laws.EncodedClass.wrWRsv (off : Sys2Proof.Offset) (wdata : Sys2Proof.Word) :
    Sys2Proof.Laws.EncodedClass.Statement (.wrWRsv off wdata) := Sys2Proof.opClass_hostWord _ _ _

theorem Sys2Proof.Laws.EncodedClass.buserrMisalignedRdH (off : Sys2Proof.Offset) :
    Sys2Proof.Laws.EncodedClass.Statement (.buserrMisalignedRdH off) := Sys2Proof.opClass_hostWord _ _ _

theorem Sys2Proof.Laws.EncodedClass.buserrMisalignedRdW (off : Sys2Proof.Offset) :
    Sys2Proof.Laws.EncodedClass.Statement (.buserrMisalignedRdW off) := Sys2Proof.opClass_hostWord _ _ _

theorem Sys2Proof.Laws.EncodedClass.buserrWrongSizeRdB (off : Sys2Proof.Offset) :
    Sys2Proof.Laws.EncodedClass.Statement (.buserrWrongSizeRdB off) := Sys2Proof.opClass_hostWord _ _ _

theorem Sys2Proof.Laws.EncodedClass.buserrWrongSizeRdH (off : Sys2Proof.Offset) :
    Sys2Proof.Laws.EncodedClass.Statement (.buserrWrongSizeRdH off) := Sys2Proof.opClass_hostWord _ _ _

theorem Sys2Proof.Laws.EncodedClass.buserrMisalignedWrH (off : Sys2Proof.Offset) (wdata : Sys2Proof.Word) :
    Sys2Proof.Laws.EncodedClass.Statement (.buserrMisalignedWrH off wdata) := Sys2Proof.opClass_hostWord _ _ _

theorem Sys2Proof.Laws.EncodedClass.buserrMisalignedWrW (off : Sys2Proof.Offset) (wdata : Sys2Proof.Word) :
    Sys2Proof.Laws.EncodedClass.Statement (.buserrMisalignedWrW off wdata) := Sys2Proof.opClass_hostWord _ _ _

theorem Sys2Proof.Laws.EncodedClass.buserrWrongSizeWrB (off : Sys2Proof.Offset) (wdata : Sys2Proof.Word) :
    Sys2Proof.Laws.EncodedClass.Statement (.buserrWrongSizeWrB off wdata) := Sys2Proof.opClass_hostWord _ _ _

theorem Sys2Proof.Laws.EncodedClass.buserrWrongSizeWrH (off : Sys2Proof.Offset) (wdata : Sys2Proof.Word) :
    Sys2Proof.Laws.EncodedClass.Statement (.buserrWrongSizeWrH off wdata) := Sys2Proof.opClass_hostWord _ _ _

theorem Sys2Proof.Laws.EncodedClass.evSyncDone :
    Sys2Proof.Laws.EncodedClass.Statement (.evSyncDone) := Sys2Proof.opClass_bodyWord _ _

theorem Sys2Proof.Laws.EncodedClass.evPixDone :
    Sys2Proof.Laws.EncodedClass.Statement (.evPixDone) := Sys2Proof.opClass_bodyWord _ _

theorem Sys2Proof.Laws.EncodedClass.evDispatch :
    Sys2Proof.Laws.EncodedClass.Statement (.evDispatch) := Sys2Proof.opClass_bodyWord _ _

theorem Sys2Proof.Laws.EncodedClass.evFeed :
    Sys2Proof.Laws.EncodedClass.Statement (.evFeed) := Sys2Proof.opClass_bodyWord _ _

theorem Sys2Proof.Laws.EncodedClass.evReset :
    Sys2Proof.Laws.EncodedClass.Statement (.evReset) := Sys2Proof.opClass_bodyWord _ _

theorem Sys2Proof.Laws.EncodedClass.illegalClass11 (body : BitVec 14) :
    Sys2Proof.Laws.EncodedClass.Statement (.illegalClass11 body) := Sys2Proof.opClass_bodyWord _ _

theorem Sys2Proof.Laws.EncodedClass.illegalEv (body : BitVec 14) :
    Sys2Proof.Laws.EncodedClass.Statement (.illegalEv body) := Sys2Proof.opClass_bodyWord _ _

theorem Sys2Proof.Laws.EncodedClass.illegalSz11 (write : Bool) (off : Sys2Proof.Offset) :
    Sys2Proof.Laws.EncodedClass.Statement (.illegalSz11 write off) := by
  cases write <;> exact Sys2Proof.opClass_hostWord _ _ _
end

