-- ==== Sys2Proof/Laws/Tables.lean ====
section
/-! SUPPORT. The laws of the waveform codes and the slot layout: which codes carry the border flag, which slots hold which kind, and the addresses of the tables. -/

namespace Sys2Proof.Machine

theorem borderFlag_borderCode (b : BitVec 6) : borderFlag (borderCode b) = true := by
  revert b
  decide

theorem borderCode_eq_ofNat (b : BitVec 6) : borderCode b = BitVec.ofNat 8 (0x40 + b.toNat) := by
  revert b
  decide

/-- R74, R75: exactly the BORDER codes carry the border flag. -/
theorem borderFlag_code (k : CodeKind) (b : BitVec 6) : borderFlag (k.code b) = decide (k = .border) := by
  revert b
  cases k <;> decide

/-- R74, R75: exactly PASS has the pass-through class bit. -/
theorem passBit_code (k : CodeKind) (b : BitVec 6) : passBit (k.code b) = decide (k = .pass) := by
  revert b
  cases k <;> decide

/-- The kind of the code at `T[i]` (R90). -/
def kindAt (i : Nat) : CodeKind := slotKind (tableOfIndex i) (i % Config.tableLen)

theorem layoutCode_of_lt {i : Nat} (h : i < 160) (b : BitVec 6) : layoutCode b i = (kindAt i).code b := if_pos h

set_option maxRecDepth 4000 in
/-- R93: the BORDER slots. -/
theorem kindAt_border : ∀ i < 160,
    (kindAt i = .border ↔ (98 ≤ i ∧ i < 128) ∨ (130 ≤ i ∧ i < 136) ∨ (156 ≤ i ∧ i < 160)) := by
  intro i hi
  have h : ∀ j : Fin 160,
      (kindAt j = .border ↔ (98 ≤ j.val ∧ j.val < 128) ∨ (130 ≤ j.val ∧ j.val < 136) ∨ (156 ≤ j.val ∧ j.val < 160)) := by
    decide
  exact h ⟨i, hi⟩

set_option maxRecDepth 4000 in
/-- R90: the PASS slots. -/
theorem kindAt_pass : ∀ i < 160, (kindAt i = .pass ↔ 136 ≤ i ∧ i < 156) := by
  intro i hi
  have h : ∀ j : Fin 160, (kindAt j = .pass ↔ 136 ≤ j.val ∧ j.val < 156) := by decide
  exact h ⟨i, hi⟩

/-- A code that is no BORDER code does not depend on the colour. -/
theorem code_of_ne_border {k : CodeKind} (h : k ≠ .border) (b b' : BitVec 6) : k.code b = k.code b' := by
  cases k
  · rfl
  · rfl
  · exact absurd rfl h
  · rfl

/-- R18: BLOCK_BASE as a number. -/
theorem blockBase_toNat (p : Platform) : (blockBase p).toNat = p.blockPage.toNat * 4096 := by
  have e : (blockBase p).toNat = (p.blockPage ++ (0 : BitVec 12)).toNat := rfl
  rw [e, BitVec.toNat_append]
  simp [Nat.shiftLeft_eq]

/-- R18, R103: the address of table `k`. The whole block window lies below 2^32, so nothing wraps. -/
theorem tableAddr_toNat (p : Platform) (k : Table) :
    (tableAddr p k).toNat = p.blockPage.toNat * 4096 + 0x100 + 32 * k.index := by
  have := p.blockPage.isLt
  have hk : k.index ≤ 4 := by cases k <;> decide
  simp only [tableAddr, tableBase, BitVec.toNat_ofNat, blockBase_toNat, Config.tableOffset, Config.tableLen]
  omega

end Sys2Proof.Machine
end

