-- ==== Sys2Proof/Tests/Slice0.lean ====
section
/-! SUPPORT. The model's own tests: words and values from 30_encoding and 95_test_vectors, the refused ill-formed terms, and for each statement with hypotheses a named witness that meets them. -/

namespace Sys2Proof.Tests

open Sys2Proof Sys2Proof.Machine

/-- The outcome is a next state with property `p`. -/
def gives (r : Result) (p : State → Bool) : Bool :=
  match r with
  | .next t => p t
  | _ => false

/-- The outcome is the refusal `f`. -/
def refuses (r : Result) (f : Refusal) : Bool :=
  match r with
  | .refused g => g == f
  | _ => false

/-- The step of one operation word with its datum. -/
def access (op : OpWord) (d : Word) (s : State) : Result := take (.access op d) s

/-- The reset state after `enable`: both sides armed. -/
def armed : State := { State.reset with en := true, syncPend := true, pixPend := true }

/-- An armed state on the last line of a frame, with an update waiting (L2-D D10). -/
def boundary : State :=
  { armed with
    vline := 312, frame := 0xFFFFFFFF, curBase := 0x20000000, upd := true, pendPreset := 2, pendBase := 0x20010000 }

/-- A state with a sync transfer of table LL and a row of the picture in flight. -/
def sending : State :=
  { armed with
    syncPend := false, pixPend := false, sch := some ⟨tableAddr testPlatform .ll, 32, 0⟩, pch := some ⟨0x20000000, 256, 0⟩ }

/-- The same transfers in a model that steps element reads. -/
def streaming : State := { sending with stepsElements := true }

/-! Decoding: a word of every row, written out from CLASS, SZ and OFF or EVT (R69, R78 to R80, R84; L2-E). -/

theorem test_decode_rdCtrl : decode ⟨0b0010000000000000, 0x0⟩ = .rdCtrl := by decide
theorem test_decode_rdStatus : decode ⟨0b0010000000000100, 0x0⟩ = .rdStatus := by decide
theorem test_decode_rdVline : decode ⟨0b0010000000001000, 0x0⟩ = .rdVline := by decide
theorem test_decode_rdBline : decode ⟨0b0010000000001100, 0x0⟩ = .rdBline := by decide
theorem test_decode_rdFrame : decode ⟨0b0010000000010000, 0x0⟩ = .rdFrame := by decide
theorem test_decode_rdBorder : decode ⟨0b0010000000010100, 0x0⟩ = .rdBorder := by decide
theorem test_decode_rdMode : decode ⟨0b0010000000011000, 0x0⟩ = .rdMode := by decide
theorem test_decode_rdFbBase : decode ⟨0b0010000000011100, 0x0⟩ = .rdFbBase := by decide
theorem test_decode_rdFbPend : decode ⟨0b0010000000100000, 0x0⟩ = .rdFbPend := by decide
theorem test_decode_rdGeom : decode ⟨0b0010000000100100, 0x0⟩ = .rdGeom := by decide
theorem test_decode_wrCtrl : decode ⟨0b0110000000000000, 0x1⟩ = .wrCtrl 0x1 := by decide
theorem test_decode_wrStatus : decode ⟨0b0110000000000100, 0x7⟩ = .wrStatus 0x7 := by decide
theorem test_decode_wrVline : decode ⟨0b0110000000001000, 0xA⟩ = .wrVline 0xA := by decide
theorem test_decode_wrBline : decode ⟨0b0110000000001100, 0x5⟩ = .wrBline 0x5 := by decide
theorem test_decode_wrFrame : decode ⟨0b0110000000010000, 0x3⟩ = .wrFrame 0x3 := by decide
theorem test_decode_wrBorder : decode ⟨0b0110000000010100, 0x9⟩ = .wrBorder 0x9 := by decide
theorem test_decode_wrMode : decode ⟨0b0110000000011000, 0x2⟩ = .wrMode 0x2 := by decide
theorem test_decode_wrFbBase : decode ⟨0b0110000000011100, 0x20000000⟩ = .wrFbBase 0x20000000 := by decide
theorem test_decode_wrFbPend : decode ⟨0b0110000000100000, 0x1⟩ = .wrFbPend 0x1 := by decide
theorem test_decode_wrGeom : decode ⟨0b0110000000100100, 0xFFFFFFFF⟩ = .wrGeom 0xFFFFFFFF := by decide
theorem test_decode_rdRsvr : decode ⟨0b0010000011111100, 0x0⟩ = .rdRsvr 0x0FC := by decide
theorem test_decode_wrRsvr : decode ⟨0b0110000000101000, 0xFFFFFFFF⟩ = .wrRsvr 0x028 0xFFFFFFFF := by decide
theorem test_decode_rdBTbl : decode ⟨0b0000000110011111, 0x0⟩ = .rdBTbl 0x19F := by decide
theorem test_decode_rdHTbl : decode ⟨0b0001000110000000, 0x0⟩ = .rdHTbl 0x180 := by decide
theorem test_decode_rdWTbl : decode ⟨0b0010000110000000, 0x0⟩ = .rdWTbl 0x180 := by decide
theorem test_decode_wrBTbl : decode ⟨0b0100000100000000, 0x80⟩ = .wrBTbl 0x100 0x80 := by decide
theorem test_decode_wrHTbl : decode ⟨0b0101000110011110, 0x1234⟩ = .wrHTbl 0x19E 0x1234 := by decide
theorem test_decode_wrWTbl : decode ⟨0b0110000110011100, 0x12345678⟩ = .wrWTbl 0x19C 0x12345678 := by decide
theorem test_decode_rdBRsv : decode ⟨0b0000000110100011, 0x0⟩ = .rdBRsv 0x1A3 := by decide
theorem test_decode_rdHRsv : decode ⟨0b0001000110100000, 0x0⟩ = .rdHRsv 0x1A0 := by decide
theorem test_decode_rdWRsv : decode ⟨0b0010111111111100, 0x0⟩ = .rdWRsv 0xFFC := by decide
theorem test_decode_wrBRsv : decode ⟨0b0100111111111111, 0x1⟩ = .wrBRsv 0xFFF 0x1 := by decide
theorem test_decode_wrHRsv : decode ⟨0b0101111111111110, 0x1⟩ = .wrHRsv 0xFFE 0x1 := by decide
theorem test_decode_wrWRsv : decode ⟨0b0110111111111100, 0x1⟩ = .wrWRsv 0xFFC 0x1 := by decide
theorem test_decode_buserrMisalignedRdH : decode ⟨0b0001000011111111, 0x0⟩ = .buserrMisalignedRdH 0x0FF := by decide
theorem test_decode_buserrMisalignedRdW : decode ⟨0b0010000100000010, 0x0⟩ = .buserrMisalignedRdW 0x102 := by decide
theorem test_decode_buserrWrongSizeRdB : decode ⟨0b0000000011111111, 0x0⟩ = .buserrWrongSizeRdB 0x0FF := by decide
theorem test_decode_buserrWrongSizeRdH : decode ⟨0b0001000000001000, 0x0⟩ = .buserrWrongSizeRdH 0x008 := by decide
theorem test_decode_buserrMisalignedWrH : decode ⟨0b0101111111111111, 0x6⟩ = .buserrMisalignedWrH 0xFFF 0x6 := by decide
theorem test_decode_buserrMisalignedWrW : decode ⟨0b0110000110100010, 0x7⟩ = .buserrMisalignedWrW 0x1A2 0x7 := by decide
theorem test_decode_buserrWrongSizeWrB : decode ⟨0b0100000000000000, 0x1⟩ = .buserrWrongSizeWrB 0x000 0x1 := by decide
theorem test_decode_buserrWrongSizeWrH : decode ⟨0b0101000000010100, 0x5⟩ = .buserrWrongSizeWrH 0x014 0x5 := by decide
theorem test_decode_evSyncDone : decode ⟨0b1000000000000000, 0x0⟩ = .evSyncDone := by decide
theorem test_decode_evPixDone : decode ⟨0b1000000000000001, 0x0⟩ = .evPixDone := by decide
theorem test_decode_evDispatch : decode ⟨0b1000000000000010, 0x0⟩ = .evDispatch := by decide
theorem test_decode_evFeed : decode ⟨0b1000000000000011, 0x0⟩ = .evFeed := by decide
theorem test_decode_evReset : decode ⟨0b1000000000000100, 0x0⟩ = .evReset := by decide
theorem test_decode_illegalClass11 : decode ⟨0b1111111111111111, 0x0⟩ = .illegalClass11 0x3FFF := by decide
theorem test_decode_illegalEv : decode ⟨0b1000000000001000, 0x0⟩ = .illegalEv 0x0008 := by decide
theorem test_decode_illegalSz11 : decode ⟨0b0111000000001000, 0x0⟩ = .illegalSz11 true 0x008 := by decide

/-- L2-E: the other illegal words of the table. -/
theorem test_decode_reservedEvents :
    decode ⟨0x8005, 0⟩ = .illegalEv 5 ∧ decode ⟨0x8007, 0⟩ = .illegalEv 7 ∧ decode ⟨0xC000, 0⟩ = .illegalClass11 0 ∧
    decode ⟨0x3008, 0⟩ = .illegalSz11 false 0x008 := by decide

/-- The table word's bits: the operation word is in bits [15:0] and the datum above it. -/
theorem test_decodeTableWord :
    decodeTableWord 16 0x2008 = some .rdVline ∧ decodeTableWord 48 0x000000096014 = some (.wrBorder 9) ∧
    decodeTableWord 8 0x2008 = none := by decide

/-! WellFormed refuses ill-formed terms, one for each check. -/

theorem test_illFormed_rsvr : (Instr.rdRsvr 0x024).wellFormed = false ∧ (Instr.rdRsvr 0x100).wellFormed = false ∧
    (Instr.wrRsvr 0x02A 0).wellFormed = false := by decide
theorem test_illFormed_tbl : (Instr.rdBTbl 0x0FF).wellFormed = false ∧ (Instr.wrBTbl 0x1A0 0).wellFormed = false := by decide
theorem test_illFormed_tblHalf : (Instr.rdHTbl 0x101).wellFormed = false ∧ (Instr.wrHTbl 0x1A0 0).wellFormed = false := by decide
theorem test_illFormed_tblWord : (Instr.rdWTbl 0x102).wellFormed = false ∧ (Instr.wrWTbl 0x0FC 0).wellFormed = false := by decide
theorem test_illFormed_rsv : (Instr.rdBRsv 0x19F).wellFormed = false ∧ (Instr.wrBRsv 0x100 0).wellFormed = false := by decide
theorem test_illFormed_rsvHalf : (Instr.rdHRsv 0x1A1).wellFormed = false ∧ (Instr.wrHRsv 0x19E 0).wellFormed = false := by decide
theorem test_illFormed_rsvWord : (Instr.rdWRsv 0x1A2).wellFormed = false ∧ (Instr.wrWRsv 0x19C 0).wellFormed = false := by decide
theorem test_illFormed_misaligned : (Instr.buserrMisalignedRdH 0x002).wellFormed = false ∧
    (Instr.buserrMisalignedWrW 0x004 0).wellFormed = false := by decide
theorem test_illFormed_wrongSize : (Instr.buserrWrongSizeRdB 0x100).wellFormed = false ∧
    (Instr.buserrWrongSizeWrH 0x001 0).wellFormed = false ∧ (Instr.buserrWrongSizeRdH 0x100).wellFormed = false := by decide
theorem test_illFormed_illegalEv : (Instr.illegalEv 4).wellFormed = false := by decide

/-! L2-R: register reads. -/

theorem test_rdCtrl : gives (access 0x2000 0 State.reset) (fun t => t.out == .rdata 0) = true := by decide
theorem test_rdStatus : gives (access 0x2004 0 State.reset) (fun t => t.out == .rdata 0) = true := by decide
theorem test_rdVline : gives (access 0x2008 0 State.reset) (fun t => t.out == .rdata 1) = true := by decide
theorem test_rdBline : gives (access 0x200C 0 ({ State.reset with bline := 256 })) (fun t => t.out == .rdata 0x100) = true := by decide
theorem test_rdFrame : gives (access 0x2010 0 boundary) (fun t => t.out == .rdata 0xFFFFFFFF) = true := by decide
theorem test_rdBorder : gives (access 0x2014 0 ({ State.reset with border := 9 })) (fun t => t.out == .rdata 9) = true := by decide
theorem test_rdFbBase : gives (access 0x201C 0 boundary) (fun t => t.out == .rdata 0x20000000) = true := by decide
theorem test_rdFbPend : gives (access 0x2020 0 boundary) (fun t => t.out == .rdata 0x20010000) = true := by decide
theorem test_rdGeom : gives (access 0x2024 0 State.reset) (fun t => t.out == .rdata 0x01000100) = true := by decide

/-- L2-R R11 and R13: STATUS with both tokens pending, without and with an update waiting. -/
theorem test_rdStatus_armed : gives (access 0x2004 0 armed) (fun t => t.out == .rdata 3) = true ∧
    gives (access 0x2004 0 boundary) (fun t => t.out == .rdata 7) = true := by decide

/-- L2-R R12: MODE with the current preset 0 and the pending preset 2. -/
theorem test_rdMode : gives (access 0x2018 0 boundary) (fun t => t.out == .rdata 0x20) = true := by decide

/-- L2-R R14: GEOM of preset 2. -/
theorem test_rdGeom_wide : gives (access 0x2024 0 { armed with curPreset := 2 }) (fun t => t.out == .rdata 0x01000280) = true := by
  decide

/-- L2-X X10, X12, X13, X15: reserved space reads 0. -/
theorem test_reservedReads : gives (access 0x20FC 0 armed) (fun t => t.out == .rdata 0) = true ∧
    gives (access 0x21A0 0 armed) (fun t => t.out == .rdata 0) = true ∧
    gives (access 0x01A3 0 armed) (fun t => t.out == .rdata 0) = true ∧
    gives (access 0x2FFC 0 armed) (fun t => t.out == .rdata 0) = true := by decide

/-! L2-T: table window reads of the reset contents. -/

theorem test_tbl_words : gives (access 0x210C 0 State.reset) (fun t => t.out == .rdata 0x01010000) = true ∧
    gives (access 0x2130 0 State.reset) (fun t => t.out == .rdata 0x01010100) = true ∧
    gives (access 0x2160 0 State.reset) (fun t => t.out == .rdata 0x40400000) = true := by decide
theorem test_tbl_words_al : gives (access 0x2184 0 State.reset) (fun t => t.out == .rdata 0x40404040) = true ∧
    gives (access 0x2188 0 State.reset) (fun t => t.out == .rdata 0x80808080) = true ∧
    gives (access 0x219C 0 State.reset) (fun t => t.out == .rdata 0x40404040) = true := by decide
theorem test_tbl_bytes : gives (access 0x0187 0 State.reset) (fun t => t.out == .rdata 0x40) = true ∧
    gives (access 0x0188 0 State.reset) (fun t => t.out == .rdata 0x80) = true := by decide
theorem test_tbl_halves : gives (access 0x110E 0 State.reset) (fun t => t.out == .rdata 0x0101) = true ∧
    gives (access 0x1140 0 State.reset) (fun t => t.out == .rdata 0x0100) = true := by decide

/-! L2-H: register writes. -/

/-- H1, H2: enable, and a datum with bit 0 clear. -/
theorem test_wrCtrl : gives (access 0x6000 1 State.reset) (fun t => t.en && t.syncPend && t.pixPend) = true ∧
    gives (access 0x6000 0xFFFFFFFE State.reset) (fun t => t == State.reset.present .writeDone) = true := by decide
/-- H4, H5: EN = 1 already. -/
theorem test_wrCtrl_again : gives (access 0x6000 1 sending) (fun t => t == sending.present .writeDone) = true ∧
    gives (access 0x6000 0 sending) (fun t => t == sending.present .writeDone) = true := by decide
/-- H6 to H11: the ignored writes. -/
theorem test_ignoredWrites : gives (access 0x6004 7 armed) (fun t => t == armed.present .writeDone) = true ∧
    gives (access 0x6008 0 armed) (fun t => t == armed.present .writeDone) = true ∧
    gives (access 0x600C 5 armed) (fun t => t == armed.present .writeDone) = true ∧
    gives (access 0x6010 0 armed) (fun t => t == armed.present .writeDone) = true ∧
    gives (access 0x6020 1 armed) (fun t => t == armed.present .writeDone) = true ∧
    gives (access 0x6024 0 armed) (fun t => t == armed.present .writeDone) = true := by decide
/-- H12, H15: a direct preset, and a datum above 2 whose low bits say 1. -/
theorem test_wrMode_direct : gives (access 0x6018 1 State.reset) (fun t => t.modeWord == 0x11 && t.geomWord == 0x01000140 && !t.upd) = true ∧
    gives (access 0x6018 0x80000001 { State.reset with curPreset := 2, pendPreset := 2 }) (fun t => t.modeWord == 0) = true := by decide
/-- H17: a pending preset. -/
theorem test_wrMode_pending : gives (access 0x6018 1 armed) (fun t => t.modeWord == 0x10 && t.upd) = true := by decide
/-- H19, H20. -/
theorem test_wrFbBase : gives (access 0x601C 0x20008000 State.reset) (fun t => t.curBase == 0x20008000 && t.pendBase == 0x20008000) = true ∧
    gives (access 0x601C 0x20010000 { armed with curBase := 0x20000000 }) (fun t => t.curBase == 0x20000000 && t.pendBase == 0x20010000 && t.upd) = true := by
  decide
/-- L2-X X11, X14 and L2-T T23: writes to reserved space and to the table window change nothing. -/
theorem test_windowWrites : gives (access 0x6028 0xFFFFFFFF armed) (fun t => t == armed.present .writeDone) = true ∧
    gives (access 0x6FFC 1 armed) (fun t => t == armed.present .writeDone) = true ∧
    gives (access 0x4108 0x80 armed) (fun t => t == armed.present .writeDone) = true := by decide

/-! L2-B: WR BORDER. -/

set_option maxRecDepth 20000 in
/-- B1: the tables after colour 9. -/
theorem test_wrBorder : gives (access 0x6014 9 State.reset) (fun t => t.border == 9 && t.tbl.readLE 0x60 4 == 0x49490000 &&
    t.tbl.readLE 0x7C 4 == 0x49494949 && t.tbl.readLE 0x84 4 == 0x49494949 && t.tbl.readLE 0x88 4 == 0x80808080 &&
    t.tbl.readLE 0x9C 4 == 0x49494949 && t.tbl.readLE 0x0C 4 == 0x01010000) = true := by decide
/-- B3, B5: 16 and 0x40 are rejected. -/
theorem test_wrBorder_rejected : gives (access 0x6014 16 State.reset) (fun t => t == State.reset.present .writeDone) = true ∧
    gives (access 0x6014 0x40 State.reset) (fun t => t == State.reset.present .writeDone) = true := by decide

/-! L2-X: errors. -/

theorem test_busError : gives (access 0x1008 0 armed) (fun t => t == armed.present (.busError .wrongSize 0x008)) = true ∧
    gives (access 0x2002 0 armed) (fun t => t == armed.present (.busError .misaligned 0x002)) = true ∧
    gives (access 0x10FF 0 armed) (fun t => t == armed.present (.busError .misaligned 0x0FF)) = true ∧
    gives (access 0x00FF 0 armed) (fun t => t == armed.present (.busError .wrongSize 0x0FF)) = true := by decide
theorem test_busError_writes : gives (access 0x4000 1 State.reset) (fun t => t == State.reset.present (.busError .wrongSize 0x000)) = true ∧
    gives (access 0x5014 5 armed) (fun t => t == armed.present (.busError .wrongSize 0x014)) = true ∧
    gives (access 0x61A2 0 armed) (fun t => t == armed.present (.busError .misaligned 0x1A2)) = true := by decide

/-! L2-D, L2-F, L2-W, L2-Z: the events. -/

/-- D5: line 37 starts AL. -/
theorem test_dispatch : gives (access 0x8002 0 { armed with vline := 37 }) (fun t => t.out == .syncStart 0x40000180 32 && t.vline == 38 &&
    t.schBusy && !t.syncPend && t.frame == 0) = true := by decide
/-- D10: the frame boundary with a commit, and FRAME wrapping. -/
theorem test_dispatch_commit : gives (access 0x8002 0 boundary) (fun t => t.out == .syncStart 0x40000140 32 && t.vline == 1 && t.frame == 0 &&
    t.curPreset == 2 && t.curBase == 0x20010000 && !t.upd && t.geomWord == 0x01000280) = true := by decide
/-- F5: row 255 of preset 1. -/
theorem test_feed : gives (access 0x8003 0 { armed with curBase := 0x20000000, curPreset := 1, bline := 255 })
    (fun t => t.out == .pixStart 0x20013EC0 320 && t.bline == 256 && t.pchBusy && !t.pixPend) = true := by decide
/-- F9: the wrap after 256 rows. -/
theorem test_feed_wrap : gives (access 0x8003 0 { armed with curBase := 0xFFFFFF00, bline := 256 })
    (fun t => t.out == .pixStart 0xFFFFFF00 256 && t.bline == 1) = true := by decide
/-- W1, W2. -/
theorem test_completions : gives (access 0x8000 0 sending) (fun t => !t.schBusy && t.syncPend && t.pchBusy) = true ∧
    gives (access 0x8001 0 sending) (fun t => !t.pchBusy && t.pixPend && t.schBusy) = true := by decide
/-- D12, F12, W3, W4: steps that are not enabled. -/
theorem test_notEnabled : refuses (access 0x8002 0 sending) .dispatchNotEnabled = true ∧
    refuses (access 0x8003 0 sending) .feedNotEnabled = true ∧
    refuses (access 0x8000 0 State.reset) .syncDoneNotEnabled = true ∧
    refuses (access 0x8001 0 State.reset) .pixDoneNotEnabled = true := by decide
/-- L2-Z. -/
theorem test_reset : gives (access 0x8004 0 { boundary with sch := sending.sch, pch := sending.pch, bline := 9, border := 9, tbl := [(98, 0x49)] })
    (fun t => t == State.reset) = true := by decide
/-- L2-E: illegal words are refused. -/
theorem test_illegal : refuses (access 0xFFFF 0 armed) .illegalWord = true ∧ refuses (access 0x8008 0 armed) .illegalWord = true ∧
    refuses (access 0x3008 0 armed) .illegalWord = true := by decide

/-! The channels and the step. -/

/-- R148: the first two codes of LL, one element after the other. -/
theorem test_syncRead : gives (runStimuli [.syncRead, .syncRead] streaming) (fun t => t.out == .syncCode 0x00 && t.sch == some ⟨0x40000100, 32, 2⟩) = true := by
  decide
/-- R150: the second element of the row. -/
theorem test_pixRead : gives (runStimuli [.pixRead 7, .pixRead 8] streaming) (fun t => t.out == .pixel 0x20000001 8) = true := by decide
/-- R149: where element reads are stepped, SYNC_DONE is refused after 5 of them and accepted after all 32. -/
theorem test_syncDone_needsAllElements :
    refuses (runStimuli (lineSteps 5) { armed with stepsElements := true }) .syncDoneNotEnabled = true ∧
    gives (runStimuli (lineSteps 32) { armed with stepsElements := true }) (fun t => !t.schBusy && t.syncPend) = true := by decide
/-- R151: where element reads are stepped, PIX_DONE is refused one element short and accepted at the count. -/
theorem test_pixDone_needsAllElements :
    refuses (access 0x8001 0 { streaming with pch := some ⟨0x20000000, 256, 255⟩ }) .pixDoneNotEnabled = true ∧
    gives (access 0x8001 0 { streaming with pch := some ⟨0x20000000, 256, 256⟩ }) (fun t => !t.pchBusy && t.pixPend) = true := by
  decide
/-- R149: a model that steps no element reads refuses one. -/
theorem test_elementsNotStepped : refuses (take .syncRead sending) .elementsNotStepped = true ∧
    refuses (take (.pixRead 1) sending) .elementsNotStepped = true := by decide
/-- A placed word is the next step. -/
theorem test_step : gives (step (State.reset.withFetchWord 16 0x2008)) (fun t => t.out == .rdata 1) = true := by decide
/-- T-S7: `set_mode 1` twice, while disabled. -/
theorem test_setMode_twice : gives (runStimuli (setModeWrite 1 ++ setModeWrite 1) State.reset)
    (fun t => t.geomWord == 0x01000140 && t.modeWord == 0x11) = true := by decide
/-- R88: while disabled, `set_mode` polls nothing; while enabled, it polls until the commit. -/
theorem test_setMode_polls :
    (match pseudoSetMode 1 [] State.reset with | .notPolled t => t.modeWord == 0x11 | _ => false) = true ∧
    (match pseudoSetMode 1 [[], [stimulusOf .evDispatch]] boundary with
      | .returned v t => v == 2 && t.modeWord == 0x11 | _ => false) = true ∧
    (match pseudoSetMode 1 [[]] armed with | .waiting t => t.modeWord == 0x10 | _ => false) = true := by decide
/-- R88, R143: another agent steps between the first two reads of `wait_frame`. -/
theorem test_waitFrame_gap :
    (match waitFrame [[stimulusOf .evDispatch]] boundary with | .returned v _ => v == 0 | _ => false) = true ∧
    (match waitFrame [[], []] boundary with | .waiting _ => true | _ => false) = true := by decide
/-- R102: the classes of lines 3, 36 and 37 (L2-C). -/
theorem test_lineClass : lineClass 3 = .verticalSync ∧ lineClass 36 = .borderLine ∧ lineClass 37 = .activeLine := by decide

/-! Witnesses: for each statement with hypotheses, a concrete state and operands that meet all of them, one for
each clause and at the boundary values of its range. -/

/-- A reset-like state meets the table invariant, whatever its other fields are. -/
theorem reset_shows : State.reset.TablesShowBorder := ⟨Memory.wf_nil, fun _ _ => rfl⟩

theorem witness_inv_armed : armed.Inv :=
  ⟨by decide, by decide, by decide, reset_shows, by decide, by decide, by simp [armed, State.reset, State.SyncTransferLegal],
    by simp [armed, State.reset, State.PixTransferLegal]⟩

theorem witness_inv_boundary : boundary.Inv :=
  ⟨by decide, by decide, by decide, reset_shows, by decide, by decide, by simp [boundary, armed, State.reset, State.SyncTransferLegal],
    by simp [boundary, armed, State.reset, State.PixTransferLegal]⟩

theorem witness_inv_sending : sending.Inv := by
  refine ⟨by decide, by decide, by decide, reset_shows, by decide, by decide, ?_, ?_⟩
  · intro t ht
    cases ht
    exact ⟨rfl, by decide, by decide⟩
  · intro t ht
    cases ht
    exact ⟨⟨0, rfl⟩, by decide⟩

theorem witness_inv_streaming : streaming.Inv := witness_inv_sending

/-- Offsets at the edges of their ranges. -/
theorem witness_DecodeOfEncodeGivesTheOperation : (Instr.rdRsvr 0x028).WellFormed ∧ (Instr.wrRsvr 0x0FC 7).WellFormed ∧
    (Instr.rdBTbl 0x100).WellFormed ∧ (Instr.wrWTbl 0x19C 1).WellFormed ∧ (Instr.rdBRsv 0x1A0).WellFormed ∧
    (Instr.buserrWrongSizeRdB 0x0FF).WellFormed ∧ (Instr.illegalEv 5).WellFormed := by decide

theorem witness_EncodeOfDecodeGivesTheWord : opClass 0x6014 = 0b01 ∧ opSz 0x6014 ≠ 0b11 := by decide

theorem witness_BadHostAccessesEndInBusError :
    (opClass 0x10FF = 0b00 ∧ sizeOfSz (opSz 0x10FF) = some .half ∧ ¬ Aligned .half (opOff 0x10FF)) ∧
    (opClass 0x50FE = 0b01 ∧ sizeOfSz (opSz 0x50FE) = some .half ∧ Aligned .half (opOff 0x50FE) ∧ InRegisterRegion (opOff 0x50FE) ∧
      AccessSize.half ≠ .word) := by decide

theorem witness_OnlyBadHostAccessesGetBusError : gives (exec (decode ⟨0x1008, 0⟩) armed) (fun t => t.out == .busError .wrongSize 0x008) = true := by
  decide

theorem witness_IllegalWordsAreRefused : opClass 0xC000 = 0b11 ∧ (opClass 0x3008 = 0b00 ∧ opSz 0x3008 = 0b11) ∧
    (opClass 0x7008 = 0b01 ∧ opSz 0x7008 = 0b11) ∧ (opClass 0x8008 = 0b10 ∧ (0x8008 : OpWord).extractLsb' 3 11 ≠ 0) ∧
    (opClass 0x8005 = 0b10 ∧ 5 ≤ ((0x8005 : OpWord).extractLsb' 0 3).toNat) := by decide

theorem witness_HostWordsAlwaysComplete : IsHostWord 0x2008 ∧ opClass 0x2008 = 0b00 ∧ IsHostWord 0x6014 ∧ opClass 0x6014 = 0b01 := by decide

theorem witness_TableWindowReadsAreLittleEndian :
    (opClass 0x019F = 0b00 ∧ InTableWindow (opOff 0x019F) ∧ opSz 0x019F = 0b00) ∧
    (opClass 0x1100 = 0b00 ∧ InTableWindow (opOff 0x1100) ∧ opSz 0x1100 = 0b01 ∧ Aligned .half (opOff 0x1100)) ∧
    (opClass 0x219C = 0b00 ∧ InTableWindow (opOff 0x219C) ∧ opSz 0x219C = 0b10 ∧ Aligned .word (opOff 0x219C)) := by decide

theorem witness_ReservedSpaceReadsZero :
    (opClass 0x20FC = 0b00 ∧ ReservedRegister (opOff 0x20FC) ∧ ReservedRegister (opOff 0x2028) ∧ opSz 0x2028 = 0b10) ∧
    (InReservedRegion (opOff 0x0FFF) ∧ opSz 0x0FFF = 0b00) ∧
    (InReservedRegion (opOff 0x11A0) ∧ opSz 0x11A0 = 0b01 ∧ Aligned .half (opOff 0x11A0)) ∧
    (InReservedRegion (opOff 0x2FFC) ∧ opSz 0x2FFC = 0b10 ∧ Aligned .word (opOff 0x2FFC)) := by decide

theorem witness_WindowWritesChangeNothing :
    (opClass 0x6028 = 0b01 ∧ ReservedRegister (opOff 0x6028) ∧ opSz 0x6028 = 0b10) ∧
    (InTableWindow (opOff 0x419F) ∧ opSz 0x419F = 0b00) ∧
    (InTableWindow (opOff 0x5100) ∧ opSz 0x5100 = 0b01 ∧ Aligned .half (opOff 0x5100)) ∧
    (InTableWindow (opOff 0x619C) ∧ opSz 0x619C = 0b10 ∧ Aligned .word (opOff 0x619C)) ∧
    (InReservedRegion (opOff 0x41A0) ∧ opSz 0x41A0 = 0b00) ∧
    (InReservedRegion (opOff 0x5FFE) ∧ opSz 0x5FFE = 0b01 ∧ Aligned .half (opOff 0x5FFE)) ∧
    (InReservedRegion (opOff 0x61A0) ∧ opSz 0x61A0 = 0b10 ∧ Aligned .word (opOff 0x61A0)) := by decide

theorem witness_HostAccessesAreIdempotent : IsHostWord 0x6014 ∧ armed.tbl.wf ∧
    gives (exec (decode ⟨0x6014, 16⟩) armed) (fun _ => true) = true ∧
    IsHostWord 0x2008 ∧ opClass 0x2008 = 0b00 ∧ gives (exec (decode ⟨0x2008, 0⟩) armed) (fun _ => true) = true :=
  ⟨by decide, Memory.wf_nil, by decide, by decide, by decide, by decide⟩

theorem witness_CtrlWriteEnablesOnce : ((1 : Word).getLsbD 0 = true ∧ State.reset.en = false) ∧
    (0xFFFFFFFE : Word).getLsbD 0 = false ∧ armed.en = true := by decide

theorem witness_BorderWriteRecoloursFlaggedSlots : State.reset.tbl.wf ∧ (15 : Word).toNat ≤ State.reset.plat.borderMax.toNat ∧
    State.reset.plat.borderMax.toNat < (16 : Word).toNat := ⟨Memory.wf_nil, by decide, by decide⟩

theorem witness_BorderWriteKeepsTheLayout : State.reset.TablesShowBorder ∧
    gives (exec (.wrBorder 15) State.reset) (fun _ => true) = true := ⟨reset_shows, by decide⟩

theorem witness_ModeWriteSelectsThePreset : State.reset.en = false ∧ armed.en = true := by decide

theorem witness_BaseWriteSelectsTheBase : State.reset.en = false ∧ armed.en = true := by decide

theorem witness_DispatchStartsTheLineAndAdvances :
    (armed.en = true ∧ armed.syncPend = true ∧ armed.vline.toNat + 1 ≤ 312) ∧
    (({ armed with vline := 312 } : State).vline.toNat + 1 > 312 ∧ ({ armed with vline := 312 } : State).upd = false) ∧
    (boundary.en = true ∧ boundary.syncPend = true ∧ 312 < boundary.vline.toNat + 1 ∧ boundary.upd = true) := by decide

/-- L2-C: CLASSIFY at the edges of every range. -/
theorem witness_ClassifyFollowsTheDecisionTable :
    [0, 1, 2, 3, 4, 5, 6, 36, 37, 292, 293, 309, 310, 312, 313, 511].map (fun n => (classify (BitVec.ofNat 9 n)).index) =
      [4, 0, 0, 1, 2, 2, 3, 3, 4, 4, 3, 3, 2, 2, 4, 4] := by decide

/-- With the element reads stepped and not stepped. -/
theorem witness_LinesAdvanceVlineAndFrame : armed.lineReads = 0 ∧ ({ armed with stepsElements := true } : State).lineReads = 32 ∧ armed.en = true ∧ armed.syncPend = true ∧ armed.VlineLegal ∧ boundary.VlineLegal := by decide

theorem witness_FrameOf312LinesReturnsVline : boundary.en = true ∧ boundary.syncPend = true ∧ boundary.VlineLegal := by decide

theorem witness_FeedHandsOutTheRow : armed.en = true ∧ armed.pixPend = true := by decide

theorem witness_RowsFollowWithPeriod256 : armed.en = true ∧ armed.pixPend = true ∧ armed.bline = 0 ∧
    (∀ pixels ∈ ([[], []] : List (List Byte)), pixels.length = armed.rowReads) ∧
    ∀ pixels ∈ [List.replicate 256 (7 : Byte)], pixels.length = ({ armed with stepsElements := true } : State).rowReads :=
  ⟨rfl, rfl, rfl, by decide, fun pixels h => by
    rw [List.mem_singleton.mp h, List.length_replicate]
    rfl⟩

theorem witness_FeedIgnoresTheSyncSide : let s := armed; let s' : State := { armed with vline := 312, frame := 5, syncPend := false }
    s'.bline = s.bline ∧ s'.curBase = s.curBase ∧ s'.curPreset = s.curPreset ∧ s'.en = s.en ∧ s'.pixPend = s.pixPend ∧
    gives (exec .evFeed s) (fun _ => true) = true := by decide

theorem witness_DispatchIgnoresThePictureSide : gives (exec .evDispatch armed) (fun _ => true) = true := by decide

/-- Not all elements read where none are stepped, and all of them read where they are. -/
theorem witness_CompletionsSetTheirPendingBit :
    (let x : Transfer := ⟨0x40000100, 32, 0⟩; (sending.stepsElements = true → x.done = x.count) ∧ sending.sch = some x) ∧
    (let x : Transfer := ⟨0x20000000, 256, 0⟩; (sending.stepsElements = true → x.done = x.count) ∧ sending.pch = some x) ∧
    (let x : Transfer := ⟨0x40000100, 32, 32⟩; let s : State := { streaming with sch := some x }
     s.stepsElements = true ∧ (s.stepsElements = true → x.done = x.count) ∧ s.sch = some x) := by decide

theorem witness_EventsNotEnabledAreRefused : State.reset.sch = none ∧ State.reset.pch = none ∧ State.reset.en = false ∧
    sending.syncPend = false ∧ sending.pixPend = false ∧
    State.reset.stepsElements = false ∧ streaming.stepsElements = true ∧
    (let x : Transfer := ⟨0x40000100, 32, 31⟩; x.done ≠ x.count ∧ ({ streaming with sch := some x } : State).sch = some x) ∧
    (let x : Transfer := ⟨0x20000000, 256, 0⟩; x.done ≠ x.count ∧ streaming.pch = some x) := by decide

theorem witness_BorderFlagMarksTheBorderSlots : State.reset.TablesShowBorder := reset_shows

theorem witness_OnlyTheGapCedesTheTick : State.reset.TablesShowBorder := reset_shows

theorem witness_SyncElementReadGetsTheCurrentCode : streaming.Inv ∧ streaming.stepsElements = true ∧
    streaming.sch = some ⟨tableAddr testPlatform .ll, 32, 0⟩ ∧ 0 < 32 :=
  ⟨witness_inv_streaming, rfl, rfl, by decide⟩

theorem witness_SyncElementReadsAreNeverCorrupt : streaming.Inv ∧ gives (take .syncRead streaming) (fun _ => true) = true :=
  ⟨witness_inv_streaming, by decide⟩

theorem witness_DispatchedTableIsReadSlotBySlot : let s : State := { armed with stepsElements := true }
    s.Inv ∧ s.stepsElements = true ∧ s.en = true ∧ s.syncPend = true ∧ 31 < 32 :=
  ⟨witness_inv_armed, by decide⟩

theorem witness_PictureElementReadsAscend : streaming.stepsElements = true ∧ streaming.pch = some ⟨0x20000000, 256, 0⟩ ∧ 0 < 256 := by decide

theorem witness_StepKeepsTheInvariants : sending.Inv ∧ boundary.Inv ∧ gives (step boundary) (fun _ => true) = true :=
  ⟨witness_inv_sending, witness_inv_boundary, by decide⟩

theorem witness_ChannelsCarryOneRequest : armed.Inv ∧ gives (exec .evDispatch armed) (fun _ => true) = true ∧
    gives (exec .evFeed armed) (fun _ => true) = true ∧ sending.Inv ∧
    gives (exec .evSyncDone sending) (fun _ => true) = true ∧ gives (exec .evPixDone sending) (fun _ => true) = true :=
  ⟨witness_inv_armed, by decide, by decide, witness_inv_sending, by decide, by decide⟩

/-- VLINE and FRAME change at a DISPATCH at the frame boundary, BLINE at a FEED. -/
theorem witness_CountersChangeOnlyAtTheirSteps :
    gives (exec .evDispatch boundary) (fun t => t.vline != boundary.vline && t.frame != boundary.frame) = true ∧
    gives (exec .evFeed armed) (fun t => t.bline != armed.bline) = true := by decide

theorem witness_StatusBitsChangeOnlyByTheirWriters :
    gives (exec (.wrCtrl 1) State.reset) (fun t => t.en && t.syncPend && t.pixPend) = true ∧
    gives (exec .evReset boundary) (fun t => !t.en && !t.syncPend && !t.pixPend && !t.upd) = true ∧
    gives (exec (.wrMode 1) armed) (fun t => t.upd) = true := by decide

theorem witness_ConfigurationChangesOnlyByItsWriters :
    gives (exec (.wrBorder 15) State.reset) (fun t => t.border != State.reset.border) = true ∧
    gives (exec (.wrMode 1) State.reset) (fun t => t.curPreset != State.reset.curPreset && t.pendPreset != State.reset.pendPreset) = true ∧
    gives (exec (.wrFbBase 1) State.reset) (fun t => t.curBase != State.reset.curBase && t.pendBase != State.reset.pendBase) = true ∧
    gives (exec .evDispatch boundary) (fun t => t.curPreset != boundary.curPreset && t.curBase != boundary.curBase) = true := by decide

theorem witness_ChannelsChangeOnlyByTheirSteps :
    gives (take (stimulusOf .evDispatch) armed) (fun t => t.sch != armed.sch) = true ∧
    gives (take (stimulusOf .evFeed) armed) (fun t => t.pch != armed.pch) = true ∧
    gives (take .syncRead streaming) (fun t => t.sch != streaming.sch) = true ∧
    gives (take (.pixRead 3) streaming) (fun t => t.pch != streaming.pch) = true := by decide

theorem witness_CommitTakesEffectAtOnce : boundary.en = true ∧ boundary.syncPend = true ∧ 312 ≤ boundary.vline.toNat ∧ boundary.upd = true := by
  decide

theorem witness_FeedLeavesNoOldRowInFlight : boundary.Inv ∧ gives (exec .evFeed boundary) (fun _ => true) = true :=
  ⟨witness_inv_boundary, by decide⟩

theorem witness_StepRunsTheNextOperation :
    ({ armed with inputs := [.access 0x2008 0] } : State).inputs = .access 0x2008 0 :: [] ∧
    (Instr.wrBorder 9).WellFormed ∧ ({ armed with inputs := [stimulusOf (.wrBorder 9)] } : State).inputs = stimulusOf (.wrBorder 9) :: [] ∧
    ({ armed with inputs := [.syncRead] } : State).inputs = .syncRead :: [] ∧
    ({ armed with inputs := [.pixRead 3] } : State).inputs = .pixRead 3 :: [] := by decide

theorem witness_BlockStepsOfItsOwnAccord : (armed.inputs = [] ∧ armed.en = true ∧ armed.pixPend = true) ∧
    (let s : State := { armed with pixPend := false }; s.inputs = [] ∧ s.en = true ∧ s.pixPend = false ∧ s.syncPend = true) ∧
    (State.reset.inputs = [] ∧ State.reset.en = false) ∧ (sending.pixPend = false ∧ sending.syncPend = false) := by decide

theorem witness_PlacedWordRunsNext : decodeTableWord 48 0x000000096014 = some (.wrBorder 9) := by decide

theorem witness_SameCycleWritesMissTheCommit : boundary.en = true ∧ boundary.syncPend = true ∧ boundary.pixPend = true ∧
    312 ≤ boundary.vline.toNat ∧ boundary.upd = true := by decide

theorem witness_CycleReadsFirstAndResetOverrides : (⟨[], true, true, [], false, false, true⟩ : Cycle).reset = true ∧
    (let c : Cycle := ⟨[0x2008], true, true, [], false, false, false⟩
     c.reset = false ∧ c.hostReads = 0x2008 :: [] ∧ opClass 0x2008 = 0b00 ∧ opSz 0x2008 ≠ 0b11) := by decide

theorem witness_WaitFrameHangsWhileDisabled : State.reset.en = false ∧
    ∀ g ∈ [[stimulusOf (.wrMode 1)], [Stimulus.access 0x2008 0]], ∀ r ∈ g, r.writesCtrl = false ∧ r.isReset = false := by decide

/-- The gap holds the DISPATCH of line 312, after which the second read of FRAME differs. -/
theorem witness_WaitFrameReturnMeansFrameBoundary : boundary.Inv ∧
    (∀ g ∈ [[stimulusOf .evDispatch]], ∀ r ∈ g, r.isReset = false) ∧
    (match waitFrame [[stimulusOf .evDispatch]] boundary with | .returned v _ => v == 0 | _ => false) = true :=
  ⟨witness_inv_boundary, by decide, by decide⟩

/-- R146's three forms: the base alone, the preset alone, and both with MODE first. The first read of the poll comes
before the DISPATCH of line 312 and the second after it. -/
theorem witness_SetModeProtocolInstallsTheWrites : boundary.Inv ∧ boundary.en = true ∧ State.reset.en = false ∧
    (∀ g ∈ [[], [stimulusOf .evDispatch]], ∀ r ∈ g, r.isReset = false) ∧
    ∀ writes ∈ [[stimulusOf (.wrFbBase 5)], [stimulusOf (.wrMode 1)], [stimulusOf (.wrMode 1), stimulusOf (.wrFbBase 5)]],
      writes ≠ [] ∧ (∀ r ∈ writes, r.writesConfig = true) ∧
      gives (runStimuli writes boundary) (fun t =>
        match waitCommit [[], [stimulusOf .evDispatch]] t with
        | .returned _ _ => true
        | _ => false) = true :=
  ⟨witness_inv_boundary, by decide, by decide, by decide, by decide⟩

/-- The run of lines watched by host master 0: DISPATCH, SYNC_DONE and a read of FRAME in turn. -/
def lineState : Nat → State
  | 0 => armed
  | n + 1 =>
    if n % 3 = 0 then (lineState n).dispatch
    else if n % 3 = 1 then (lineState n).completeSync
    else (lineState n).present (.rdata (lineState n).frame)

def lineLabel (n : Nat) : Stimulus :=
  if n % 3 = 0 then stimulusOf .evDispatch else if n % 3 = 1 then stimulusOf .evSyncDone else stimulusOf .rdFrame

def lineRun : Run where
  state := lineState
  label := lineLabel
  master n := if n % 3 = 2 then some 0 else none
  nextAccess _ m := if m = 0 then some (encode .rdFrame) else none

theorem lineState_enabled (n : Nat) : (lineState n).en = true ∧ (lineState n).stepsElements = false ∧
    if n % 3 = 1 then (lineState n).schBusy = true else (lineState n).syncPend = true := by
  induction n with
  | zero => decide
  | succ n ih =>
    obtain h | h | h : n % 3 = 0 ∨ n % 3 = 1 ∨ n % 3 = 2 := by omega
    · have e : lineState (n + 1) = (lineState n).dispatch := by rw [lineState, if_pos h]
      rw [e, if_pos (by omega)]
      exact ⟨by simpa [State.dispatch] using ih.1, by simpa [State.dispatch] using ih.2.1, by simp [State.dispatch, State.schBusy]⟩
    · have e : lineState (n + 1) = (lineState n).completeSync := by rw [lineState, if_neg (by omega), if_pos h]
      rw [e, if_neg (by omega)]
      exact ⟨ih.1, ih.2.1, rfl⟩
    · have e : lineState (n + 1) = (lineState n).present (.rdata (lineState n).frame) := by
        rw [lineState, if_neg (by omega), if_neg (by omega)]
      rw [if_neg (by omega)] at ih
      rw [e, if_neg (by omega)]
      exact ih

theorem lineRun_takes (n : Nat) : take (lineLabel n) (lineState n) = .next (lineState (n + 1)) := by
  have h := lineState_enabled n
  obtain hn | hn | hn : n % 3 = 0 ∨ n % 3 = 1 ∨ n % 3 = 2 := by omega
  · rw [if_neg (by omega)] at h
    rw [lineLabel, lineState, if_pos hn, if_pos hn]
    exact exec_evDispatch (by simp [State.dispatchEnabled, h])
  · rw [if_pos hn] at h
    rw [lineLabel, lineState, if_neg (by omega), if_pos hn, if_neg (by omega), if_pos hn]
    refine exec_evSyncDone ?_
    obtain ⟨x, hx⟩ := Option.isSome_iff_exists.mp h.2.2
    rw [State.syncDoneEnabled, hx]
    simp [State.takenAsComplete, h.2.1]
  · rw [lineLabel, lineState, if_neg (by omega), if_neg (by omega), if_neg (by omega), if_neg (by omega)]
    rfl

theorem lineRun_follows : lineRun.Follows := by
  refine ⟨lineRun_takes, fun n op d hl hw => ?_, fun n m hm => ?_, fun n m a ha _ => ha⟩
  · refine ⟨0, if_pos ?_⟩
    by_contra hn
    obtain h | h : n % 3 = 0 ∨ n % 3 = 1 := by omega
    · rw [show lineRun.label n = stimulusOf .evDispatch from if_pos h] at hl
      cases hl
      exact absurd hw (by decide)
    · rw [show lineRun.label n = stimulusOf .evSyncDone from (if_neg (by omega)).trans (if_pos h)] at hl
      cases hl
      exact absurd hw (by decide)
  · have h2 : n % 3 = 2 := by
      by_contra h
      rw [show lineRun.master n = none from if_neg h] at hm
      cases hm
    rw [show lineRun.master n = some 0 from if_pos h2] at hm
    cases hm
    exact ⟨encode .rdFrame, rfl, by decide, (if_neg (by omega)).trans (if_neg (by omega))⟩

/-- A frame has at most one boundary, so a run has at most as many as steps. -/
theorem boundaries_le (ρ : Run) (n k : Nat) : ρ.boundaries (n + k) ≤ ρ.boundaries n + k := by
  induction k with
  | zero => exact Nat.le_refl _
  | succ k ih =>
    show ρ.boundaries (n + k) + _ ≤ _
    split <;> omega

theorem lineRun_noFrameWrap : lineRun.NoFrameWrapBetweenReads 0 := by
  intro n k hnk hn hk hbetween
  have hn2 : n % 3 = 2 := by
    by_contra h
    rw [show lineRun.master n = none from if_neg h] at hn
    cases hn
  have hle : k ≤ n + 3 := by
    by_contra h
    exact hbetween (n + 3) (by omega) (by omega) (if_pos (by omega))
  have := boundaries_le lineRun n (k - n)
  rw [show n + (k - n) = k by omega] at this
  omega

theorem witness_FrameChangesInFairRuns : lineRun.Follows ∧ lineRun.NoReset ∧ (lineRun.state 0).Inv ∧ (lineRun.state 0).en = true ∧
    lineRun.FairDispatch ∧ lineRun.FairSync ∧ lineRun.FairHost ∧ lineRun.WaitsFrame 0 2 ∧ lineRun.NoFrameWrapBetweenReads 0 := by
  have dispatches : ∀ n, lineRun.label (3 * n) = stimulusOf .evDispatch := fun n => if_pos (by omega)
  have completes : ∀ n, lineRun.label (3 * n + 1) = stimulusOf .evSyncDone := fun n =>
    (if_neg (by omega)).trans (if_pos (by omega))
  refine ⟨lineRun_follows, fun n => ?_, witness_inv_armed, rfl, fun n _ => ⟨3 * n, by omega, ?_⟩,
    fun n _ => ⟨3 * n + 1, by omega, ?_⟩, fun n m a ha => ⟨3 * n + 2, by omega, ?_⟩, ⟨⟨rfl, rfl⟩, fun _ _ _ => rfl⟩, lineRun_noFrameWrap⟩
  · show (lineLabel n).isReset = false
    rw [lineLabel]
    split
    · decide
    · split <;> decide
  · rw [dispatches]; decide
  · rw [completes]; decide
  · have hm : m = 0 := by
      by_contra h
      rw [show lineRun.nextAccess n m = none from if_neg h] at ha
      cases ha
    rw [hm]
    exact if_pos (by omega)

end Sys2Proof.Tests
end

section
/-! SUPPORT. The decoder reads a well-formed operation back from its word (R69 to R71), and the step that takes it (R23). -/

namespace Sys2Proof

/-- R71 step 6: a read past the ten registers finds a reserved offset. -/
theorem decodeRegRead_of_reserved {off : Offset} (h : 0x028 ≤ off.toNat) : decodeRegRead off = .rdRsvr off := by
  simp (disch := bv_omega) only [decodeRegRead, if_neg]

/-- R71 step 6: a write past the ten registers finds a reserved offset. -/
theorem decodeRegWrite_of_reserved {off : Offset} (h : 0x028 ≤ off.toNat) (d : Word) :
    decodeRegWrite off d = .wrRsvr off d := by
  simp (disch := bv_omega) only [decodeRegWrite, if_neg]

/-- R71 step 2: the word of an event number above the five events. -/
theorem decodeEvent_of_illegal {body : BitVec 14} (h : 5 ≤ body.toNat) : decodeEvent body = .illegalEv body := by
  simp (disch := bv_omega) only [decodeEvent, if_neg]

/-- R71 step 3: SZ 11 in either host class. -/
theorem decode_encode_illegalSz11 (write : Bool) (off : Offset) :
    decode (encode (.illegalSz11 write off)) = .illegalSz11 write off := by
  cases write <;> simp [encode, decode, readWord, writeWord, sizeOfSz]

/-- The operation of every row is read back from its word, operands included. -/
theorem decode_encode {i : Instr} (h : i.WellFormed) : decode (encode i) = i := by
  cases i
  case rdCtrl | rdStatus | rdVline | rdBline | rdFrame | rdBorder | rdMode | rdFbBase | rdFbPend | rdGeom =>
    exact decode_readWord (sz := 0b10) (n := .word) rfl _
  case wrCtrl d | wrStatus d | wrVline d | wrBline d | wrFrame d | wrBorder d | wrMode d | wrFbBase d | wrFbPend d
      | wrGeom d =>
    exact decode_writeWord (sz := 0b10) (n := .word) rfl _ d
  case evSyncDone | evPixDone | evDispatch | evFeed | evReset => exact decode_eventWord _
  case illegalClass11 body => simp [encode, decode]
  case illegalSz11 write off => exact decode_encode_illegalSz11 write off
  all_goals simp only [Instr.WellFormed, Instr.wellFormed, decide_eq_true_eq] at h
  case illegalEv body => exact (decode_eventWord body).trans (decodeEvent_of_illegal h)
  -- The rows with a free offset: its alignment and region decide each branch of R71 steps 4 to 8.
  case rdRsvr off | rdBTbl off | rdHTbl off | rdWTbl off | rdBRsv off | rdHRsv off | rdWRsv off
      | buserrMisalignedRdH off | buserrMisalignedRdW off | buserrWrongSizeRdB off | buserrWrongSizeRdH off =>
    refine (decode_readWord rfl off).trans ?_
    simp (disch := omega) only [decodeRead, if_pos, if_neg, decodeRegRead_of_reserved]
  case wrRsvr off d | wrBTbl off d | wrHTbl off d | wrWTbl off d | wrBRsv off d | wrHRsv off d | wrWRsv off d
      | buserrMisalignedWrH off d | buserrMisalignedWrW off d | buserrWrongSizeWrB off d | buserrWrongSizeWrH off d =>
    refine (decode_writeWord rfl off d).trans ?_
    simp (disch := omega) only [decodeWrite, if_pos, if_neg, decodeRegWrite_of_reserved]

end Sys2Proof

namespace Sys2Proof.Machine

/-- R23: a step takes the first of the stimuli that wait, with the others left waiting. -/
theorem step_of_inputs_cons {s : State} {r : Stimulus} {rest : List Stimulus} (h : s.inputs = r :: rest) :
    step s = take r { s with inputs := rest } := by
  rw [step, h]

/-- The word of a well-formed operation runs that operation. -/
theorem take_stimulusOf {i : Instr} (h : i.WellFormed) (s : State) : take (stimulusOf i) s = exec i s :=
  congrArg (exec · s) (decode_encode h)

/-- Settles O52: the step takes the head of the list, and a well-formed operation is read back from its word. -/
theorem stepRunsTheNextOperation : Obligations.StepRunsTheNextOperation := by
  refine ⟨?word, ?operation, ?syncRead, ?pixRead⟩
  case word => exact fun op d rest s h => step_of_inputs_cons h
  case operation => exact fun i rest s hi h => (step_of_inputs_cons h).trans (take_stimulusOf hi _)
  case syncRead => exact fun rest s h => step_of_inputs_cons h
  case pixRead => exact fun v rest s h => step_of_inputs_cons h

end Sys2Proof.Machine
end

section
/-! SUPPORT. The laws the state's invariants need beside those of State, Exec, Memory and Tables: each field after DISPATCH, what an accepted border colour is, and the effect of an operation with its cases named. -/

namespace Sys2Proof.Machine

section
variable (s : State)

@[simp] theorem State.dispatch_bline : s.dispatch.bline = s.bline := State.advanceLine_bline _
@[simp] theorem State.dispatch_en : s.dispatch.en = s.en := State.advanceLine_en _
@[simp] theorem State.dispatch_syncPend : s.dispatch.syncPend = false := State.advanceLine_syncPend _
@[simp] theorem State.dispatch_pixPend : s.dispatch.pixPend = s.pixPend := State.advanceLine_pixPend _
@[simp] theorem State.dispatch_border : s.dispatch.border = s.border := State.advanceLine_border _
@[simp] theorem State.dispatch_pendPreset : s.dispatch.pendPreset = s.pendPreset := State.advanceLine_pendPreset _
@[simp] theorem State.dispatch_pendBase : s.dispatch.pendBase = s.pendBase := State.advanceLine_pendBase _
@[simp] theorem State.dispatch_tbl : s.dispatch.tbl = s.tbl := State.advanceLine_tbl _
@[simp] theorem State.dispatch_sch : s.dispatch.sch = some ⟨tableAddr s.plat (classify s.vline), Config.tableLen, 0⟩ :=
  State.advanceLine_sch _
@[simp] theorem State.dispatch_pch : s.dispatch.pch = s.pch := State.advanceLine_pch _
@[simp] theorem State.dispatch_plat : s.dispatch.plat = s.plat := State.advanceLine_plat _
@[simp] theorem State.dispatch_stepsElements : s.dispatch.stepsElements = s.stepsElements :=
  State.advanceLine_stepsElements _
@[simp] theorem State.dispatch_inputs : s.dispatch.inputs = s.inputs := State.advanceLine_inputs _

/-- R103, R110: how DISPATCH changes FRAME. -/
theorem State.dispatch_frame_cases :
    s.dispatch.frame = s.frame ∨ (312 ≤ s.vline.toNat ∧ s.dispatch.frame = s.frame + 1 ∧ s.dispatch.vline = 1) := by
  have count : BitVec.ofNat 32 (s.frame.toNat + 1) = s.frame + 1 := by simp [BitVec.ofNat_add]
  rcases s.dispatch_cases with ⟨-, e⟩ | ⟨hv, -, e⟩ | ⟨hv, -, e⟩ <;> rw [e]
  · exact .inl rfl
  · exact .inr ⟨hv, count, rfl⟩
  · exact .inr ⟨hv, count, rfl⟩

/-- R106: DISPATCH either leaves the current pair and UPD, or commits the pending pair at the frame boundary. -/
theorem State.dispatch_commit_cases :
    (s.dispatch.curPreset = s.curPreset ∧ s.dispatch.curBase = s.curBase ∧ s.dispatch.upd = s.upd) ∨
    (312 ≤ s.vline.toNat ∧ s.upd = true ∧
      s.dispatch.curPreset = s.pendPreset ∧ s.dispatch.curBase = s.pendBase ∧ s.dispatch.upd = false) := by
  rcases s.dispatch_cases with ⟨-, e⟩ | ⟨-, -, e⟩ | ⟨hv, hu, e⟩ <;> rw [e]
  · exact .inl ⟨rfl, rfl, rfl⟩
  · exact .inl ⟨rfl, rfl, rfl⟩
  · exact .inr ⟨hv, hu, rfl, rfl, rfl⟩

/-- R81: what an enabled DISPATCH finds. -/
theorem State.dispatchEnabled_iff : s.dispatchEnabled = true ↔ s.en = true ∧ s.syncPend = true := Bool.and_eq_true_iff

/-- R81: what an enabled FEED finds. -/
theorem State.feedEnabled_iff : s.feedEnabled = true ↔ s.en = true ∧ s.pixPend = true := Bool.and_eq_true_iff

theorem State.schBusy_eq_false_iff : s.schBusy = false ↔ s.sch = none :=
  Option.isSome_eq_false_iff.trans Option.isNone_iff_eq_none

theorem State.pchBusy_eq_false_iff : s.pchBusy = false ↔ s.pch = none :=
  Option.isSome_eq_false_iff.trans Option.isNone_iff_eq_none

/-- R170: RESET leaves the reset state, but for the OPEN parameters and the model's own fields. -/
theorem State.doReset_eq_reset :
    s.doReset = { State.reset with plat := s.plat, stepsElements := s.stepsElements, inputs := s.inputs } := rfl

end

/-- R127: an accepted colour is the whole datum, and at most BORDER_MAX. -/
theorem borderColour_eq_some {p : Platform} {d : Word} {b : BitVec 6} (h : borderColour p d = some b) :
    b.toNat = d.toNat ∧ d.toNat ≤ p.borderMax.toNat := by
  obtain ⟨hle, hb⟩ := Option.ite_none_right_eq_some.mp h
  cases hb
  have hlt : d.toNat < 2 ^ 6 := hle.trans_lt p.borderMax.isLt
  exact ⟨by simpa using Nat.mod_eq_of_lt hlt, hle⟩

/-- What an operation leaves, with the cases of `exec_cases` under their names. -/
inductive Effect (s : State) : Instr → State → Prop
  | answer {i : Instr} (o : Output) (only : OnlyAnswers i) : Effect s i (s.present o)
  | enable (d : Word) : Effect s (.wrCtrl d) ((s.enable d).present .writeDone)
  | setBorder (d : Word) (b : BitVec 6) (colour : borderColour s.plat d = some b) :
      Effect s (.wrBorder d) ((s.setBorder b).present .writeDone)
  | setPreset (d : Word) : Effect s (.wrMode d) ((s.setPreset (presetOfDatum d)).present .writeDone)
  | setBase (d : Word) : Effect s (.wrFbBase d) ((s.setBase d).present .writeDone)
  | completeSync (enabled : s.syncDoneEnabled = true) : Effect s .evSyncDone s.completeSync
  | completePix (enabled : s.pixDoneEnabled = true) : Effect s .evPixDone s.completePix
  | dispatch (enabled : s.dispatchEnabled = true) : Effect s .evDispatch s.dispatch
  | feed (enabled : s.feedEnabled = true) : Effect s .evFeed s.feed
  | reset : Effect s .evReset s.doReset

theorem effect_of_exec {i : Instr} {s t : State} (h : exec i s = .next t) : Effect s i t := by
  rcases exec_cases h with ⟨o, ho, rfl⟩ | ⟨d, rfl, rfl⟩ | ⟨d, b, rfl, hb, rfl⟩ | ⟨d, rfl, rfl⟩ | ⟨d, rfl, rfl⟩ |
    ⟨rfl, he, rfl⟩ | ⟨rfl, he, rfl⟩ | ⟨rfl, he, rfl⟩ | ⟨rfl, he, rfl⟩ | ⟨rfl, rfl⟩
  · exact .answer o ho
  · exact .enable d
  · exact .setBorder d b hb
  · exact .setPreset d
  · exact .setBase d
  · exact .completeSync he
  · exact .completePix he
  · exact .dispatch he
  · exact .feed he
  · exact .reset

/-- R81: an event behind its enabling condition answers a next state only when it is enabled. -/
theorem enabled_of_next {c : Bool} {u t : State} {r : Refusal} (h : (if c then .next u else .refused r : Result) = .next t) :
    c = true := by
  cases c
  · cases h
  · rfl

end Sys2Proof.Machine
end

section
/-! SUPPORT. The invariants of 10_state R39, R45, R46 (`State.Inv`), operation by operation: what the reset state meets and each named update keeps. -/

namespace Sys2Proof.Machine

theorem Table.mem_all (k : Table) : k ∈ Table.all := by
  cases k <;> decide

/-! The tokens of R45. -/

/-- R45 while `EN = 1`: it is enough that pending and busy exclude each other on each side. -/
theorem State.tokensLegal_of_enabled {s : State} (en : s.en = true) (sync : s.syncPend = !s.schBusy)
    (pix : s.pixPend = !s.pchBusy) : s.TokensLegal :=
  ⟨fun _ => ⟨sync, pix⟩, fun h => absurd (en.symm.trans h) (by decide)⟩

/-- R45: a DISPATCH that is enabled finds the sync channel idle. -/
theorem State.TokensLegal.sch_of_dispatchEnabled {s : State} (h : s.TokensLegal) (hd : s.dispatchEnabled = true) :
    s.sch = none := by
  obtain ⟨en, pend⟩ := s.dispatchEnabled_iff.mp hd
  obtain ⟨sync, -⟩ := h.1 en
  exact s.schBusy_eq_false_iff.mp (by simpa [pend] using sync)

/-- R45: a FEED that is enabled finds the picture channel idle. -/
theorem State.TokensLegal.pch_of_feedEnabled {s : State} (h : s.TokensLegal) (hf : s.feedEnabled = true) :
    s.pch = none := by
  obtain ⟨en, pend⟩ := s.feedEnabled_iff.mp hf
  obtain ⟨-, pix⟩ := h.1 en
  exact s.pchBusy_eq_false_iff.mp (by simpa [pend] using pix)

/-- R45: a sync channel that is busy has no completion pending, and the block is enabled. -/
theorem State.TokensLegal.acknowledged_of_schBusy {s : State} (h : s.TokensLegal) (busy : s.schBusy = true) :
    s.syncPend = false ∧ s.en = true := by
  cases en : s.en with
  | false =>
    obtain ⟨-, -, idle, -⟩ := h.2 en
    exact absurd (busy.symm.trans idle) (by decide)
  | true => exact ⟨by simpa [busy] using (h.1 en).1, rfl⟩

/-- R45: a picture channel that is busy has no completion pending, and the block is enabled. -/
theorem State.TokensLegal.acknowledged_of_pchBusy {s : State} (h : s.TokensLegal) (busy : s.pchBusy = true) :
    s.pixPend = false ∧ s.en = true := by
  cases en : s.en with
  | false =>
    obtain ⟨-, -, -, idle, -⟩ := h.2 en
    exact absurd (busy.symm.trans idle) (by decide)
  | true => exact ⟨by simpa [busy] using (h.1 en).2, rfl⟩

/-! The counters, the tables and the pending pair. -/

/-- R46: line 1, which RESET and the frame boundary leave, is a legal one. -/
theorem State.vlineLegal_of_first {s : State} (h : s.vline = 1) : s.VlineLegal := by
  rw [State.VlineLegal, h]
  decide

/-- R46, R103: DISPATCH keeps VLINE between 1 and 312. -/
theorem State.dispatch_vlineLegal (s : State) : s.dispatch.VlineLegal := by
  rcases s.dispatch_cases with ⟨hv, e⟩ | ⟨-, -, e⟩ | ⟨-, -, e⟩ <;> rw [e]
  · simp only [State.VlineLegal, BitVec.toNat_ofNat, Config.linesPerFrame]
    omega
  · exact State.vlineLegal_of_first rfl
  · exact State.vlineLegal_of_first rfl

/-- R46, R137: FEED leaves BLINE at the row after the one it hands out, at most HEIGHT. -/
theorem State.feed_blineLegal (s : State) : s.feed.BlineLegal := by
  have hrow : s.feedRow < 256 := by
    unfold State.feedRow Config.height
    split <;> omega
  simp only [State.BlineLegal, State.feed_bline, BitVec.toNat_ofNat, Config.height]
  omega

/-- R39, R106: at DISPATCH, either nothing of the two pairs changes, or the commit makes them equal. -/
theorem State.PendingAgrees.dispatch {s : State} (h : s.PendingAgrees) : s.dispatch.PendingAgrees := by
  rcases s.dispatch_cases with ⟨-, e⟩ | ⟨-, -, e⟩ | ⟨-, -, e⟩ <;> rw [e]
  · exact h
  · exact h
  · exact fun _ => ⟨rfl, rfl⟩

/-- R90, R127: the recoloured slots are exactly the BORDER slots of the layout, and the others show no colour. -/
theorem State.TablesShowBorder.setBorder {s : State} (h : s.TablesShowBorder) (b : BitVec 6) :
    (s.setBorder b).TablesShowBorder := by
  obtain ⟨wf, shows⟩ := h
  refine ⟨Memory.recolour_wf wf b, fun i hi => ?_⟩
  rw [State.setBorder_tbl, State.setBorder_border, Memory.recolour_read wf, shows i hi, layoutCode_of_lt hi,
    layoutCode_of_lt hi, borderFlag_code]
  by_cases hk : kindAt i = .border
  · have := (kindAt_border i hi).mp hk
    rw [if_pos ⟨by omega, by simp [hk]⟩, hk]
    rfl
  · rw [if_neg (by simp [hk])]
    exact code_of_ne_border hk _ _

/-! All invariants together, by operation. -/

theorem State.reset_inv (p : Platform) (b : Bool) (l : List Stimulus) :
    State.Inv { State.reset with plat := p, stepsElements := b, inputs := l } :=
  ⟨State.vlineLegal_of_first rfl, Nat.zero_le _, Nat.zero_le _, ⟨Memory.wf_nil, fun _ _ => rfl⟩, fun _ => ⟨rfl, rfl⟩,
    ⟨nofun, fun _ => ⟨rfl, rfl, rfl, rfl, rfl⟩⟩, nofun, nofun⟩

/-- R30, R122: an enable that takes effect finds both channels idle, so it may arm both sides. -/
theorem State.Inv.enable {s : State} (h : s.Inv) (d : Word) : (s.enable d).Inv := by
  rcases s.enable_cases d with ⟨-, hen, e⟩ | ⟨-, e⟩ <;> rw [e]
  · obtain ⟨vline, bline, border, tables, pending, tokens, sync, pix⟩ := h
    obtain ⟨-, -, schIdle, pchIdle, -⟩ := tokens.2 hen
    exact ⟨vline, bline, border, tables, pending,
      State.tokensLegal_of_enabled rfl (congrArg (!·) schIdle).symm (congrArg (!·) pchIdle).symm, sync, pix⟩
  · exact h

theorem State.Inv.setBorder {s : State} (h : s.Inv) {d : Word} {b : BitVec 6} (hb : borderColour s.plat d = some b) :
    (s.setBorder b).Inv := by
  obtain ⟨vline, bline, -, tables, pending, tokens, sync, pix⟩ := h
  obtain ⟨hbd, hd⟩ := borderColour_eq_some hb
  exact ⟨vline, bline, hbd.trans_le hd, tables.setBorder b, pending, tokens, sync, pix⟩

/-- R39, R128: the preset goes to both registers, or UPD is set. -/
theorem State.Inv.setPreset {s : State} (h : s.Inv) (p : Preset) : (s.setPreset p).Inv := by
  obtain ⟨vline, bline, border, tables, pending, tokens, sync, pix⟩ := h
  cases hen : s.en with
  | false =>
    rw [s.setPreset_disabled p hen]
    exact ⟨vline, bline, border, tables, fun hu => ⟨rfl, (pending hu).2⟩, tokens, sync, pix⟩
  | true =>
    rw [s.setPreset_enabled p hen]
    obtain ⟨syncToken, pixToken⟩ := tokens.1 hen
    exact ⟨vline, bline, border, tables, nofun, State.tokensLegal_of_enabled hen syncToken pixToken, sync, pix⟩

/-- R39, R129: the base goes to both registers, or UPD is set. -/
theorem State.Inv.setBase {s : State} (h : s.Inv) (a : Word) : (s.setBase a).Inv := by
  obtain ⟨vline, bline, border, tables, pending, tokens, sync, pix⟩ := h
  cases hen : s.en with
  | false =>
    rw [s.setBase_disabled a hen]
    exact ⟨vline, bline, border, tables, fun hu => ⟨(pending hu).1, rfl⟩, tokens, sync, pix⟩
  | true =>
    rw [s.setBase_enabled a hen]
    obtain ⟨syncToken, pixToken⟩ := tokens.1 hen
    exact ⟨vline, bline, border, tables, nofun, State.tokensLegal_of_enabled hen syncToken pixToken, sync, pix⟩

theorem State.Inv.completeSync {s : State} (h : s.Inv) (he : s.syncDoneEnabled = true) : s.completeSync.Inv := by
  obtain ⟨vline, bline, border, tables, pending, tokens, -, pix⟩ := h
  obtain ⟨-, hen⟩ := tokens.acknowledged_of_schBusy (s.schBusy_of_syncDoneEnabled he)
  exact ⟨vline, bline, border, tables, pending, State.tokensLegal_of_enabled hen rfl (tokens.1 hen).2, nofun, pix⟩

theorem State.Inv.completePix {s : State} (h : s.Inv) (he : s.pixDoneEnabled = true) : s.completePix.Inv := by
  obtain ⟨vline, bline, border, tables, pending, tokens, sync, -⟩ := h
  obtain ⟨-, hen⟩ := tokens.acknowledged_of_pchBusy (s.pchBusy_of_pixDoneEnabled he)
  exact ⟨vline, bline, border, tables, pending, State.tokensLegal_of_enabled hen (tokens.1 hen).1 rfl, sync, nofun⟩

/-- R47, R103: the transfer a DISPATCH starts reads one of the five tables from its first code. -/
theorem State.dispatch_syncTransferLegal (s : State) : s.dispatch.SyncTransferLegal := by
  intro x hx
  rw [State.dispatch_sch, Option.mem_some_iff] at hx
  subst hx
  rw [State.dispatch_plat]
  exact ⟨rfl, Nat.zero_le _, List.mem_map_of_mem (Table.mem_all _)⟩

theorem State.Inv.dispatch {s : State} (h : s.Inv) (hd : s.dispatchEnabled = true) : s.dispatch.Inv := by
  obtain ⟨-, bline, border, tables, pending, tokens, -, pix⟩ := h
  obtain ⟨hen, -⟩ := s.dispatchEnabled_iff.mp hd
  have tokens' : s.dispatch.TokensLegal :=
    State.tokensLegal_of_enabled (by simpa) (by simp [State.schBusy])
      (by simpa [State.pchBusy] using (tokens.1 hen).2)
  have tables' : s.dispatch.TablesShowBorder := by
    rwa [State.TablesShowBorder, State.dispatch_tbl, State.dispatch_border]
  have pix' : s.dispatch.PixTransferLegal := by
    rwa [State.PixTransferLegal, State.dispatch_pch]
  exact ⟨s.dispatch_vlineLegal, by simpa, by simpa, tables', pending.dispatch, tokens', s.dispatch_syncTransferLegal,
    pix'⟩

/-- R47, R137: the transfer a FEED starts has the current preset's width. -/
theorem State.feed_pixTransferLegal (s : State) : s.feed.PixTransferLegal := by
  intro x hx
  rw [State.feed_pch, Option.mem_some_iff] at hx
  subst hx
  exact ⟨⟨s.curPreset, rfl⟩, Nat.zero_le _⟩

theorem State.Inv.feed {s : State} (h : s.Inv) (hf : s.feedEnabled = true) : s.feed.Inv := by
  obtain ⟨vline, -, border, tables, pending, tokens, sync, -⟩ := h
  obtain ⟨hen, -⟩ := s.feedEnabled_iff.mp hf
  exact ⟨vline, s.feed_blineLegal, border, tables, pending,
    State.tokensLegal_of_enabled hen (tokens.1 hen).1 rfl, sync, s.feed_pixTransferLegal⟩

/-- Every operation keeps the invariants. -/
theorem State.Inv.exec {i : Instr} {s t : State} (h : s.Inv) (hx : exec i s = .next t) : t.Inv := by
  cases effect_of_exec hx with
  | answer o _ => exact h
  | enable d => exact h.enable d
  | setBorder d b hb => exact h.setBorder hb
  | setPreset d => exact h.setPreset _
  | setBase d => exact h.setBase d
  | completeSync he => exact h.completeSync he
  | completePix he => exact h.completePix he
  | dispatch he => exact h.dispatch he
  | feed he => exact h.feed he
  | reset =>
    rw [s.doReset_eq_reset]
    exact State.reset_inv _ _ _

/-- R148: an element read of the sync channel keeps the invariants, because it has an element left to read. -/
theorem State.Inv.syncElementRead {s t : State} (h : s.Inv) (hr : syncElementRead s = .next t) : t.Inv := by
  obtain ⟨x, -, hs, hlt, -, -, rfl⟩ := syncElementRead_cases hr
  obtain ⟨vline, bline, border, tables, pending, tokens, sync, pix⟩ := h
  obtain ⟨count, -, addr⟩ := sync x hs
  obtain ⟨acknowledged, hen⟩ := tokens.acknowledged_of_schBusy (by simp [State.schBusy, hs])
  have tokens' : ({ s with sch := some x.advance } : State).TokensLegal :=
    State.tokensLegal_of_enabled hen acknowledged (tokens.1 hen).2
  refine ⟨vline, bline, border, tables, pending, tokens', fun y hy => ?_, pix⟩
  cases hy
  exact ⟨count, hlt, addr⟩

/-- R150: an element read of the picture channel keeps the invariants, because it has an element left to read. -/
theorem State.Inv.pixElementRead {s t : State} {v : Byte} (h : s.Inv) (hr : pixElementRead v s = .next t) : t.Inv := by
  obtain ⟨x, -, hp, hlt, rfl⟩ := pixElementRead_cases hr
  obtain ⟨vline, bline, border, tables, pending, tokens, sync, pix⟩ := h
  obtain ⟨width, -⟩ := pix x hp
  obtain ⟨acknowledged, hen⟩ := tokens.acknowledged_of_pchBusy (by simp [State.pchBusy, hp])
  have tokens' : ({ s with pch := some x.advance } : State).TokensLegal :=
    State.tokensLegal_of_enabled hen (tokens.1 hen).1 acknowledged
  refine ⟨vline, bline, border, tables, pending, tokens', sync, fun y hy => ?_⟩
  cases hy
  exact ⟨width, hlt⟩

/-- Every stimulus keeps the invariants. -/
theorem State.Inv.take {r : Stimulus} {s t : State} (h : s.Inv) (ht : take r s = .next t) : t.Inv := by
  rcases take_cases ht with ⟨op, d, rfl, hx⟩ | ⟨rfl, hr⟩ | ⟨v, rfl, hr⟩
  · exact h.exec hx
  · exact h.syncElementRead hr
  · exact h.pixElementRead hr

end Sys2Proof.Machine
end

section
/-! THEOREMS. The statements of 10_state: the invariants, and which steps change which part of the state. -/

namespace Sys2Proof.Machine

/-- Settles O43: a step is a stimulus, the block's own FEED or DISPATCH, or nothing, and each keeps `State.Inv`. -/
theorem stepKeepsTheInvariants : Obligations.StepKeepsTheInvariants := by
  intro s t h hstep
  rcases step_cases hstep with ⟨r, rest, -, ht⟩ | ⟨-, hx⟩ | ⟨-, hx⟩ | ⟨-, rfl⟩
  · exact State.Inv.take (s := { s with inputs := rest }) h ht
  · exact h.exec hx
  · exact h.exec hx
  · exact h

/-- Settles O44: the reset state is disabled and idle on its first line, with the tables and both pairs at their reset values. -/
theorem resetStateMeetsTheInvariants : Obligations.ResetStateMeetsTheInvariants := State.reset_inv

/-- Settles O35: the reset memory lists no byte, so each reads as the reference layout with colour 0. -/
theorem resetValuesOfTheSpec : Obligations.ResetValuesOfTheSpec :=
  ⟨rfl, rfl, rfl, rfl, rfl, rfl, rfl, rfl, rfl, rfl, rfl, rfl, rfl, rfl, fun i _ => Memory.read_nil i⟩

/-- Settles O19: a rejected colour leaves the tables, and an accepted one recolours the BORDER slots of the layout. -/
theorem borderWriteKeepsTheLayout : Obligations.BorderWriteKeepsTheLayout := by
  intro d s t h hx
  cases effect_of_exec hx with
  | answer o _ => exact h
  | setBorder d b hb => exact h.setBorder b

/-- Settles O45: under R45 the bit that enables a start says that the channel is idle, and a busy channel has its bit clear. -/
theorem channelsCarryOneRequest : Obligations.ChannelsCarryOneRequest := by
  intro s t h
  obtain ⟨-, -, -, -, -, tokens, -, -⟩ := h
  refine ⟨fun hx => ?dispatch, fun hx => ?feed, fun hx => ?syncDone, fun hx => ?pixDone⟩
  case dispatch => exact tokens.sch_of_dispatchEnabled (enabled_of_next hx)
  case feed => exact tokens.pch_of_feedEnabled (enabled_of_next hx)
  case syncDone => exact tokens.acknowledged_of_schBusy (s.schBusy_of_syncDoneEnabled (enabled_of_next hx))
  case pixDone => exact tokens.acknowledged_of_pchBusy (s.pchBusy_of_pixDoneEnabled (enabled_of_next hx))

/-- Settles O46: apart from DISPATCH, FEED and RESET no operation has a counter among the fields it writes. -/
theorem countersChangeOnlyAtTheirSteps : Obligations.CountersChangeOnlyAtTheirSteps := by
  intro i s t hx
  cases effect_of_exec hx with
  | dispatch he =>
    refine ⟨fun _ => .inl rfl, fun hne => .inr ⟨rfl, ?_⟩, by simp⟩
    exact s.dispatch_frame_cases.resolve_left hne
  | _ => simp

/-- Settles O47: only enable, the two completions, the two configuration writes, DISPATCH, FEED and RESET write a status bit. -/
theorem statusBitsChangeOnlyByTheirWriters : Obligations.StatusBitsChangeOnlyByTheirWriters := by
  intro i s t hx
  cases effect_of_exec hx with
  | enable d =>
    rcases s.enable_cases d with ⟨-, hen, e⟩ | ⟨-, e⟩
    · simp [e, hen]
    · simp +contextual [e]
  | setPreset d =>
    cases hen : s.en with
    | false => simp [s.setPreset_disabled _ hen, hen]
    | true => simp [s.setPreset_enabled _ hen, hen]
  | setBase d =>
    cases hen : s.en with
    | false => simp [s.setBase_disabled _ hen, hen]
    | true => simp [s.setBase_enabled _ hen, hen]
  | dispatch he =>
    rcases s.dispatch_commit_cases with ⟨-, -, e⟩ | ⟨-, hu, -, -, e⟩
    · simp +contextual [e]
    · simp +contextual [e, hu]
  | _ => simp +contextual

/-- Settles O48: the current pair changes by a direct write or by the commit, the rest by their own write, and all by RESET. -/
theorem configurationChangesOnlyByItsWriters : Obligations.ConfigurationChangesOnlyByItsWriters := by
  intro i s t hx
  cases effect_of_exec hx with
  | setBorder d b hb => simpa using fun _ => (borderColour_eq_some hb).2
  | setPreset d =>
    cases hen : s.en with
    | false => simp [s.setPreset_disabled _ hen]
    | true => simp [s.setPreset_enabled _ hen]
  | setBase d =>
    cases hen : s.en with
    | false => simp [s.setBase_disabled _ hen]
    | true => simp [s.setBase_enabled _ hen]
  | dispatch he =>
    rcases s.dispatch_commit_cases with ⟨hp, hb, -⟩ | ⟨hv, hu, hp, hb, -⟩
    · simp [hp, hb]
    · simp [hv, hu, hp, hb]
  | _ => simp

/-- Settles O49: an operation that changes a transfer is a start, a completion or RESET, and an element read counts one element. -/
theorem channelsChangeOnlyByTheirSteps : Obligations.ChannelsChangeOnlyByTheirSteps := by
  intro r s t ht
  rcases take_cases ht with ⟨op, d, rfl, hx⟩ | ⟨rfl, hr⟩ | ⟨v, rfl, hr⟩
  · simp only [Stimulus.instr]
    generalize decode ⟨op, d⟩ = i at hx
    -- Each operation's field lemmas say which transfers it writes.
    cases effect_of_exec hx <;> simp
  · obtain ⟨x, -, hs, hlt, -, -, rfl⟩ := syncElementRead_cases hr
    exact ⟨fun _ => .inr (.inr (.inr ⟨rfl, x, hs, hlt, rfl⟩)), fun hne => absurd rfl hne, rfl, rfl, rfl⟩
  · obtain ⟨x, -, hp, hlt, rfl⟩ := pixElementRead_cases hr
    exact ⟨fun hne => absurd rfl hne, fun _ => .inr (.inr (.inr ⟨⟨v, rfl⟩, x, hp, hlt, rfl⟩)), rfl, rfl, rfl⟩

end Sys2Proof.Machine
end

section
/-! SUPPORT. What the statements of 20_memory need beside the laws of Encoding, State and Memory: the class of a decoded operation, the answer to a bad host access, and each host write made twice. -/

namespace Sys2Proof

open Laws.EncodedClass (classOf)

theorem classOf_decodeRead (n : AccessSize) (off : Offset) : classOf (decodeRead n off) = 0b00 := by
  have register : classOf (decodeRegRead off) = 0b00 := by
    unfold decodeRegRead
    split_ifs <;> rfl
  cases n with
  | byte | half =>
    rw [decodeRead]
    split_ifs <;> rfl
  | word =>
    rw [decodeRead]
    split_ifs
    · exact register
    all_goals rfl

theorem classOf_decodeWrite (n : AccessSize) (off : Offset) (d : Word) : classOf (decodeWrite n off d) = 0b01 := by
  have register : classOf (decodeRegWrite off d) = 0b01 := by
    unfold decodeRegWrite
    split_ifs <;> rfl
  cases n with
  | byte | half =>
    rw [decodeWrite]
    split_ifs <;> rfl
  | word =>
    rw [decodeWrite]
    split_ifs
    · exact register
    all_goals rfl

/-- R69, R71: a word decodes to a row of its own class. -/
theorem classOf_decode (a : Access) : classOf (decode a) = opClass a.op := by
  rcases decode_cases a with ⟨hc, e⟩ | ⟨hc, e⟩ | ⟨hc, -, e⟩ | ⟨n, hc, -, e⟩ | ⟨n, hc, -, e⟩ <;> rw [e]
  · exact hc.symm
  · rw [hc, decodeEvent]
    split_ifs <;> rfl
  · rcases hc with hc | hc <;> rw [hc] <;> rfl
  · rw [hc, classOf_decodeRead]
  · rw [hc, classOf_decodeWrite]

/-- R71 steps 4 to 8: a host word with a legal size decodes by its class. -/
theorem decode_of_host {a : Access} {n : AccessSize} (host : opClass a.op = 0b00 ∨ opClass a.op = 0b01)
    (size : sizeOfSz (opSz a.op) = some n) :
    decode a = decodeRead n (opOff a.op) ∨ decode a = decodeWrite n (opOff a.op) a.wdata := by
  rcases host with hc | hc
  · exact .inl (by simp [decode, hc, size])
  · exact .inr (by simp [decode, hc, size])

end Sys2Proof

namespace Sys2Proof.Machine

open Laws.EncodedClass (classOf)

/-! Bad host accesses (R56, R57). -/

section
variable {n : AccessSize} {off : Offset}

/-- R56: the alignment test comes first, for every size that can be misaligned. -/
theorem exec_of_misaligned (h : ¬ Aligned n off) (d : Word) (s : State) :
    exec (decodeRead n off) s = raiseBusError .misaligned off s ∧
    exec (decodeWrite n off d) s = raiseBusError .misaligned off s := by
  cases n with
  | byte => exact absurd (Nat.mod_one _) h
  | half | word =>
    rw [decodeRead, decodeWrite, if_pos h, if_pos h]
    exact ⟨rfl, rfl⟩

/-- R57: the register region takes no aligned access of 1 or 2 bytes. -/
theorem exec_of_wrongSize (aligned : Aligned n off) (region : InRegisterRegion off) (size : n ≠ .word) (d : Word)
    (s : State) :
    exec (decodeRead n off) s = raiseBusError .wrongSize off s ∧
    exec (decodeWrite n off d) s = raiseBusError .wrongSize off s := by
  cases n with
  | byte =>
    rw [decodeRead, decodeWrite, if_pos region, if_pos region]
    exact ⟨rfl, rfl⟩
  | half =>
    rw [decodeRead, decodeWrite, if_neg (not_not.mpr aligned), if_neg (not_not.mpr aligned), if_pos region,
      if_pos region]
    exact ⟨rfl, rfl⟩
  | word => exact absurd rfl size

end

/-! Host accesses made twice (R60). -/

section
variable (s : State) (o : Output)

theorem State.enable_present (d : Word) : (s.present o).enable d = (s.enable d).present o := by
  rw [State.enable, State.enable, apply_ite (State.present · o)]
  rfl

theorem State.setPreset_present (p : Preset) : (s.present o).setPreset p = (s.setPreset p).present o := by
  rw [State.setPreset, State.setPreset, apply_ite (State.present · o)]
  rfl

theorem State.setBase_present (a : Word) : (s.present o).setBase a = (s.setBase a).present o := by
  rw [State.setBase, State.setBase, apply_ite (State.present · o)]
  rfl

/-- No operation reads what the ports presented last. -/
theorem exec_present (i : Instr) : exec i (s.present o) = exec i s := by
  cases i with
  | wrCtrl d => exact (congrArg answerWrite (s.enable_present o d)).trans rfl
  | wrMode d => exact (congrArg answerWrite (s.setPreset_present o _)).trans rfl
  | wrFbBase d => exact (congrArg answerWrite (s.setBase_present o d)).trans rfl
  | _ => rfl

/-- R122: an enabled block ignores another enable. -/
theorem State.enable_enable (d : Word) : (s.enable d).enable d = s.enable d := by
  rcases s.enable_cases d with ⟨-, -, e⟩ | ⟨-, e⟩
  · rw [e]
    exact if_neg (by simp)
  · rw [e, e]

/-- R128: EN does not change, so the second write goes to the same registers. -/
theorem State.setPreset_setPreset (p : Preset) : (s.setPreset p).setPreset p = s.setPreset p := by
  cases hen : s.en <;> simp [State.setPreset, hen]

/-- R129: EN does not change, so the second write goes to the same registers. -/
theorem State.setBase_setBase (a : Word) : (s.setBase a).setBase a = s.setBase a := by
  cases hen : s.en <;> simp [State.setBase, hen]

end

/-- R127: a second rewrite finds the flagged slots with the colour already. -/
theorem Memory.recolour_recolour {m : Memory} (h : m.wf) (b : BitVec 6) :
    (m.recolour b).recolour b = m.recolour b := by
  have wf := Memory.recolour_wf h b
  refine Memory.eq_of_read_eq (Memory.recolour_wf wf b) wf fun i => ?_
  rw [Memory.recolour_read wf, Memory.recolour_read h]
  by_cases flagged : (96 ≤ i ∧ i < 160) ∧ borderFlag (m.read i) <;> simp [flagged]

theorem State.setBorder_setBorder {s : State} (h : s.tbl.wf) (b : BitVec 6) :
    (s.setBorder b).setBorder b = s.setBorder b := by
  simp only [State.setBorder, Memory.recolour_recolour h]

/-- R127: a border write whose colour is accepted. -/
theorem exec_wrBorder {s : State} {d : Word} {b : BitVec 6} (h : borderColour s.plat d = some b) :
    exec (.wrBorder d) s = answerWrite (s.setBorder b) := by
  change execWrBorder d s = _
  rw [execWrBorder, h]

/-- R60: an operation of a host class, made again at once, answers the same state. -/
theorem exec_again {i : Instr} {s t : State} (host : classOf i = 0b00 ∨ classOf i = 0b01) (wf : s.tbl.wf)
    (h : exec i s = .next t) : exec i t = .next t := by
  cases effect_of_exec h with
  | answer o _ => rwa [exec_present]
  | enable d =>
    rw [exec_present]
    exact congrArg answerWrite (s.enable_enable d)
  | setBorder d b hb =>
    rw [exec_present, exec_wrBorder (s := s.setBorder b) hb]
    exact congrArg answerWrite (State.setBorder_setBorder wf b)
  | setPreset d =>
    rw [exec_present]
    exact congrArg answerWrite (s.setPreset_setPreset _)
  | setBase d =>
    rw [exec_present]
    exact congrArg answerWrite (s.setBase_setBase d)
  | completeSync | completePix | dispatch | feed | reset => simp [classOf] at host

/-- R60: an operation of the read class changes only what the ports present. -/
theorem sameButOutput_of_read {i : Instr} {s t : State} (read : classOf i = 0b00) (h : exec i s = .next t) :
    SameButOutput s t := by
  cases effect_of_exec h with
  | answer o _ => rfl
  | _ => simp [classOf] at read

end Sys2Proof.Machine
end

section
/-! SUPPORT. The element reads of the two channels (R54, R55, R61, R148, R150): where the next element of a table is in the window, and which codes stand there. -/

namespace Sys2Proof.Machine

/-- R61, R148: element `d` of table `k` is read at the window offset of `T[32k + d]`. -/
theorem windowOffset_tableElement (p : Platform) (k : Table) {d : Nat} (hd : d < 32) (count : Nat) :
    windowOffset p (Transfer.nextAddr ⟨tableAddr p k, count, d⟩) = 0x100 + (32 * k.index + d) := by
  have page := p.blockPage.isLt
  have hk : k.index ≤ 4 := by cases k <;> decide
  have hnext : (Transfer.nextAddr ⟨tableAddr p k, count, d⟩).toNat =
      p.blockPage.toNat * 4096 + (0x100 + (32 * k.index + d)) := by
    simp only [Transfer.nextAddr, BitVec.toNat_ofNat, tableAddr_toNat]
    omega
  rw [windowOffset, BitVec.toNat_sub_of_le (BitVec.le_def.mpr (by rw [blockBase_toNat, hnext]; omega)), hnext,
    blockBase_toNat, Nat.add_sub_cancel_left]

/-- R61, R148: what an element read of a table does. -/
theorem take_syncRead {s : State} {k : Table} {d : Nat} (steps : s.stepsElements = true)
    (hx : s.sch = some ⟨tableAddr s.plat k, 32, d⟩) (hd : d < 32) :
    take .syncRead s = .next { s with
      sch := some ⟨tableAddr s.plat k, 32, d + 1⟩, out := .syncCode (s.tbl.read (32 * k.index + d)) } := by
  have hk : k.index ≤ 4 := by cases k <;> decide
  have next := (nextElement_eq_ok (c := .sync)).mpr ⟨steps, hx, hd⟩
  change syncElementRead s = _
  rw [syncElementRead, next]
  simp only [windowOffset_tableElement s.plat k hd, Config.tableOffset, Nat.add_sub_cancel_left]
  exact if_pos (by omega)

/-- R63, R150: what an element read of the picture channel does. -/
theorem take_pixRead {s : State} {x : Transfer} (steps : s.stepsElements = true) (hx : s.pch = some x)
    (left : x.done < x.count) (v : Byte) :
    take (.pixRead v) s = .next { s with pch := some x.advance, out := .pixel x.nextAddr v } := by
  have next := (nextElement_eq_ok (c := .picture)).mpr ⟨steps, hx, left⟩
  change pixElementRead v s = _
  rw [pixElementRead, next]

/-- A run goes on after its first stimulus. -/
theorem runStimuli_cons_of_next {r : Stimulus} {l : List Stimulus} {s t : State} (h : take r s = .next t) :
    runStimuli (r :: l) s = runStimuli l t := by
  rw [runStimuli, h]

/-- R54, R148: element reads in a row count up the transfer and leave the rest of the state. -/
theorem runStimuli_syncReads {s : State} {k : Table} {d : Nat} (steps : s.stepsElements = true)
    (hx : s.sch = some ⟨tableAddr s.plat k, 32, d⟩) (j : Nat) (hj : d + j ≤ 32) :
    ∃ o, runStimuli (List.replicate j .syncRead) s =
      .next { s with sch := some ⟨tableAddr s.plat k, 32, d + j⟩, out := o } := by
  induction j generalizing s d with
  | zero => exact ⟨s.out, by rw [Nat.add_zero, ← hx]; rfl⟩
  | succ j ih =>
    rw [List.replicate_succ, runStimuli_cons_of_next (take_syncRead steps hx (by omega)), Nat.add_comm j 1, ← Nat.add_assoc]
    exact ih steps rfl (by omega)

/-- R47, R103: a sync transfer in flight is of one of the five tables, and of all its codes. -/
theorem State.SyncTransferLegal.table {s : State} {x : Transfer} (h : s.SyncTransferLegal) (hx : s.sch = some x) :
    ∃ k : Table, x = ⟨tableAddr s.plat k, 32, x.done⟩ := by
  obtain ⟨count, -, addr⟩ := h x hx
  obtain ⟨k, -, hk⟩ := List.mem_map.mp addr
  obtain ⟨a, c, d⟩ := x
  exact ⟨k, by rw [hk, show c = 32 from count]⟩

/-- R75, R76: the BORDER code of a colour up to BORDER_MAX is legal, and so is every other kind. -/
theorem legalCode_code {b borderMax : BitVec 6} (h : b.toNat ≤ borderMax.toNat) (k : CodeKind) :
    legalCode borderMax (k.code b) = true := by
  cases k with
  | sync | blank | pass => rfl
  | border =>
    have hb := b.isLt
    have hmax := borderMax.isLt
    have lower : 0x40#8 ≤ borderCode b := by
      rw [borderCode_eq_ofNat, BitVec.le_def, BitVec.toNat_ofNat, BitVec.toNat_ofNat]
      omega
    have upper : borderCode b ≤ borderCode borderMax := by
      rw [borderCode_eq_ofNat, borderCode_eq_ofNat, BitVec.le_def, BitVec.toNat_ofNat, BitVec.toNat_ofNat]
      omega
    simp [legalCode, CodeKind.code, lower, upper]

/-- R46, R76: no byte of `T` is outside the four kinds. -/
theorem State.TablesShowBorder.legalCode_read {s : State} (h : s.TablesShowBorder) (border : s.BorderLegal) {i : Nat}
    (hi : i < 160) : legalCode s.plat.borderMax (s.tbl.read i) = true := by
  rw [h.2 i hi, layoutCode_of_lt hi]
  exact legalCode_code border _

end Sys2Proof.Machine
end

section
/-! THEOREMS. The statements of 20_memory: bad host accesses, host accesses made twice, and the element reads of the channels. -/

namespace Sys2Proof.Machine

/-- Settles O5: a host word with a legal size is decoded by alignment first, then by region and size. -/
theorem badHostAccessesEndInBusError : Obligations.BadHostAccessesEndInBusError := by
  intro a n s host size
  refine ⟨fun misaligned => ?_, fun aligned region narrow => ?_⟩
  · obtain ⟨read, write⟩ := exec_of_misaligned misaligned a.wdata s
    rcases decode_of_host host size with e | e <;> rw [e]
    · exact read
    · exact write
  · obtain ⟨read, write⟩ := exec_of_wrongSize aligned region narrow a.wdata s
    rcases decode_of_host host size with e | e <;> rw [e]
    · exact read
    · exact write

/-- Settles O14: no operation reads the last output, and each host write's update made twice is the update made once. -/
theorem hostAccessesAreIdempotent : Obligations.HostAccessesAreIdempotent := by
  rintro a s t ⟨host, -⟩ wf h
  rw [← classOf_decode a] at host ⊢
  exact ⟨exec_again host wf h, fun read => sameButOutput_of_read read h⟩

/-- Settles O39: by R47 the transfer is of one of the five tables, whose addresses are in the window. -/
theorem syncElementReadGetsTheCurrentCode : Obligations.SyncElementReadGetsTheCurrentCode := by
  intro s x h steps hx left
  obtain ⟨-, -, -, -, -, -, sync, -⟩ := h
  obtain ⟨k, e⟩ := sync.table hx
  rw [e] at hx ⊢
  exact ⟨k, rfl, take_syncRead steps hx left⟩

/-- Settles O40: the read is of a byte of `T`, and by R46 each of them is the layout's code with a legal colour. -/
theorem syncElementReadsAreNeverCorrupt : Obligations.SyncElementReadsAreNeverCorrupt := by
  intro s t h ht
  obtain ⟨-, -, border, tables, -⟩ := h
  obtain ⟨x, -, -, -, -, inWindow, rfl⟩ := syncElementRead_cases ht
  exact ⟨_, rfl, tables.legalCode_read border (by omega)⟩

/-- Settles O41: DISPATCH loads the classified table, `j` element reads come to its slot `j`, and none changes `T`. -/
theorem dispatchedTableIsReadSlotBySlot : Obligations.DispatchedTableIsReadSlotBySlot := by
  intro s j _ steps en pend hj
  have start : take (stimulusOf .evDispatch) s = .next s.dispatch :=
    (take_stimulusOf rfl s).trans (exec_evDispatch (s.dispatchEnabled_iff.mpr ⟨en, pend⟩))
  have steps' : s.dispatch.stepsElements = true := s.dispatch_stepsElements.trans steps
  have loaded : s.dispatch.sch = some ⟨tableAddr s.dispatch.plat (classify s.vline), 32, 0⟩ := by
    rw [State.dispatch_plat]
    exact s.dispatch_sch
  obtain ⟨o, reads⟩ := runStimuli_syncReads steps' loaded j (by omega)
  rw [Nat.zero_add] at reads
  refine ⟨_, _, (runStimuli_cons_of_next start).trans reads, take_syncRead steps' rfl hj, ?_⟩
  simp

/-- Settles O42: the next address is the row's first one and the elements read so far, modulo 2^32. -/
theorem pictureElementReadsAscend : Obligations.PictureElementReadsAscend :=
  fun _ _ v steps hx left => take_pixRead steps hx left v

end Sys2Proof.Machine
end

section
/-! SUPPORT. What the statements of 30_encoding need beside the laws of Encoding: the word an operation was read from, the operand ranges of what a word decodes to, the answer to every host word, the events that are not enabled, and the block's own step. -/

namespace Sys2Proof

/-! The word of what a word decodes to (R69). -/

/-- The word with a given CLASS and its own op[13:0]. -/
theorem bodyWord_of_class {op : OpWord} {c : BitVec 2} (cls : opClass op = c) : bodyWord c (opBody op) = op :=
  cls ▸ bodyWord_fields op

/-- The word with a given CLASS and SZ and its own OFF. -/
theorem hostWord_of_class_size {op : OpWord} {c sz : BitVec 2} (cls : opClass op = c) (size : opSz op = sz) :
    hostWord c sz (opOff op) = op :=
  cls ▸ size ▸ hostWord_fields op

theorem encode_decodeRegRead (off : Offset) : encode (decodeRegRead off) = readWord 0b10 off := by
  unfold decodeRegRead
  split_ifs <;> simp only [encode, *]

theorem encode_decodeRegWrite (off : Offset) (d : Word) : encode (decodeRegWrite off d) = writeWord 0b10 off d := by
  unfold decodeRegWrite
  split_ifs <;> simp only [encode, *]

theorem encode_decodeRead {sz : BitVec 2} {n : AccessSize} (size : sizeOfSz sz = some n) (off : Offset) :
    encode (decodeRead n off) = readWord sz off := by
  rcases sizeOfSz_cases sz with ⟨rfl, e⟩ | ⟨rfl, e⟩ | ⟨rfl, e⟩ | ⟨rfl, e⟩ <;> cases e.symm.trans size <;>
    rw [decodeRead]
  · split_ifs <;> rfl
  · split_ifs <;> rfl
  · split_ifs
    · exact encode_decodeRegRead off
    all_goals rfl

theorem encode_decodeWrite {sz : BitVec 2} {n : AccessSize} (size : sizeOfSz sz = some n) (off : Offset) (d : Word) :
    encode (decodeWrite n off d) = writeWord sz off d := by
  rcases sizeOfSz_cases sz with ⟨rfl, e⟩ | ⟨rfl, e⟩ | ⟨rfl, e⟩ | ⟨rfl, e⟩ <;> cases e.symm.trans size <;>
    rw [decodeWrite]
  · split_ifs <;> rfl
  · split_ifs <;> rfl
  · split_ifs
    · exact encode_decodeRegWrite off d
    all_goals rfl

theorem encode_decodeEvent (body : BitVec 14) : encode (decodeEvent body) = eventWord body := by
  unfold decodeEvent
  split_ifs <;> simp only [encode, *]

/-- R69: decoding drops no bit of the operation word. -/
theorem encode_decode_op (a : Access) : (encode (decode a)).op = a.op := by
  rcases decode_cases a with ⟨cls, e⟩ | ⟨cls, e⟩ | ⟨cls, size, e⟩ | ⟨n, cls, size, e⟩ | ⟨n, cls, size, e⟩ <;> rw [e]
  · exact bodyWord_of_class cls
  · rw [encode_decodeEvent]
    exact bodyWord_of_class cls
  · rcases cls with cls | cls <;> rw [cls]
    · exact hostWord_of_class_size cls size
    · exact hostWord_of_class_size cls size
  · rw [encode_decodeRead size]
    exact hostWord_of_class_size cls rfl
  · rw [encode_decodeWrite size]
    exact hostWord_of_class_size cls rfl

/-! Decoding one class of words (R71). -/

/-- R71 step 1. -/
theorem decode_of_class11 {a : Access} (cls : opClass a.op = 0b11) : decode a = .illegalClass11 (opBody a.op) :=
  if_pos cls

/-- R71 step 2. -/
theorem decode_of_event {a : Access} (cls : opClass a.op = 0b10) : decode a = decodeEvent (opBody a.op) := by
  simp [decode, cls]

/-- R71 step 3. -/
theorem decode_of_size11 {a : Access} (host : opClass a.op = 0b00 ∨ opClass a.op = 0b01) (size : opSz a.op = 0b11) :
    decode a = .illegalSz11 (opClass a.op == 0b01) (opOff a.op) := by
  rcases host with cls | cls <;> simp [decode, cls, size, sizeOfSz]

/-- R71 steps 4 to 8 for CLASS 00. The datum lines are ignored. -/
theorem decode_of_read {a : Access} {n : AccessSize} (cls : opClass a.op = 0b00) (size : sizeOfSz (opSz a.op) = some n) :
    decode a = decodeRead n (opOff a.op) := by
  simp [decode, cls, size]

/-- R71 steps 4 to 8 for CLASS 01. -/
theorem decode_of_write {a : Access} {n : AccessSize} (cls : opClass a.op = 0b01) (size : sizeOfSz (opSz a.op) = some n) :
    decode a = decodeWrite n (opOff a.op) a.wdata := by
  simp [decode, cls, size]

/-- A size field other than 11 names a size (R70). -/
theorem exists_sizeOfSz {sz : BitVec 2} (legal : sz ≠ 0b11) : ∃ n, sizeOfSz sz = some n := by
  rcases sizeOfSz_cases sz with ⟨-, e⟩ | ⟨-, e⟩ | ⟨-, e⟩ | ⟨e, -⟩
  · exact ⟨_, e⟩
  · exact ⟨_, e⟩
  · exact ⟨_, e⟩
  · exact absurd e legal

/-- A host read word decodes to the well-formed operation whose word it is, whatever the datum lines carry. -/
theorem decode_eq_of_readWord {i : Instr} {op : OpWord} {sz : BitVec 2} {d : Word} (cls : opClass op = 0b00)
    (size : opSz op = sz) (legal : sz ≠ 0b11) (word : encode i = readWord sz (opOff op)) (wf : i.WellFormed) :
    decode ⟨op, d⟩ = i := by
  obtain ⟨n, names⟩ := exists_sizeOfSz legal
  calc decode ⟨op, d⟩ = decodeRead n (opOff op) := decode_of_read cls (size ▸ names)
    _ = decode (encode i) := by rw [word, decode_readWord names]
    _ = i := decode_encode wf

/-- A host write word decodes to the well-formed operation whose word and datum it carries. -/
theorem decode_eq_of_writeWord {i : Instr} {op : OpWord} {sz : BitVec 2} {d : Word} (cls : opClass op = 0b01)
    (size : opSz op = sz) (word : encode i = writeWord sz (opOff op) d) (wf : i.WellFormed) : decode ⟨op, d⟩ = i := by
  have e : encode i = ⟨op, d⟩ := by rw [word, writeWord, hostWord_of_class_size cls size]
  rw [← e, decode_encode wf]

/-! The operand ranges of what a word decodes to (R71). -/

/-- R72: an aligned offset of the register region that is none of the ten registers is a reserved one. -/
theorem decodeRegRead_wellFormed {off : Offset} (aligned : Aligned .word off) (region : InRegisterRegion off) :
    (decodeRegRead off).WellFormed := by
  unfold decodeRegRead
  split_ifs
  case neg =>
    have aligned : off.toNat % 4 = 0 := aligned
    exact decide_eq_true ⟨by bv_omega, by omega, aligned⟩
  all_goals rfl

theorem decodeRegWrite_wellFormed {off : Offset} (aligned : Aligned .word off) (region : InRegisterRegion off)
    (d : Word) : (decodeRegWrite off d).WellFormed := by
  unfold decodeRegWrite
  split_ifs
  case neg =>
    have aligned : off.toNat % 4 = 0 := aligned
    exact decide_eq_true ⟨by bv_omega, by omega, aligned⟩
  all_goals rfl

theorem decodeRead_wellFormed (n : AccessSize) (off : Offset) : (decodeRead n off).WellFormed := by
  cases n with
  | byte | half =>
    rw [decodeRead]
    split_ifs <;> simp only [Instr.WellFormed, Instr.wellFormed, decide_eq_true_eq] <;> omega
  | word =>
    rw [decodeRead]
    split_ifs with aligned region
    · exact decodeRegRead_wellFormed aligned region
    all_goals simp only [Instr.WellFormed, Instr.wellFormed, decide_eq_true_eq]; omega

theorem decodeWrite_wellFormed (n : AccessSize) (off : Offset) (d : Word) : (decodeWrite n off d).WellFormed := by
  cases n with
  | byte | half =>
    rw [decodeWrite]
    split_ifs <;> simp only [Instr.WellFormed, Instr.wellFormed, decide_eq_true_eq] <;> omega
  | word =>
    rw [decodeWrite]
    split_ifs with aligned region
    · exact decodeRegWrite_wellFormed aligned region d
    all_goals simp only [Instr.WellFormed, Instr.wellFormed, decide_eq_true_eq]; omega

/-- R71 step 2: a number that is none of the five events is at least 5. -/
theorem decodeEvent_wellFormed (body : BitVec 14) : (decodeEvent body).WellFormed := by
  unfold decodeEvent
  split_ifs
  case neg => exact decide_eq_true (by bv_omega)
  all_goals rfl

/-- R80, R84: op[13:3] is not 0, or EVT is 5 or more. -/
theorem five_le_opBody {op : OpWord} (h : op.extractLsb' 3 11 ≠ 0 ∨ 5 ≤ (op.extractLsb' 0 3).toNat) :
    5 ≤ (opBody op).toNat := by
  have zeroField : (op.extractLsb' 3 11).toNat = op.toNat / 8 % 2048 := by
    simp [BitVec.extractLsb'_toNat, Nat.shiftRight_eq_div_pow]
  have evt : (op.extractLsb' 0 3).toNat = op.toNat % 8 := by simp [BitVec.extractLsb'_toNat]
  rw [opBody_toNat]
  rcases h with h | h
  · have : op.toNat / 8 % 2048 ≠ 0 := fun e => h (BitVec.eq_of_toNat_eq (zeroField.trans e))
    omega
  · omega

end Sys2Proof

namespace Sys2Proof.Machine

/-! The answer to a host word (R81, R111). -/

/-- R127: a border write ends with the write-complete response, accepted or not. -/
theorem exec_wrBorder_answers (d : Word) (s : State) : ∃ u, exec (.wrBorder d) s = answerWrite u := by
  cases h : borderColour s.plat d with
  | some b => exact ⟨_, exec_wrBorder h⟩
  | none =>
    refine ⟨s, ?_⟩
    change execWrBorder d s = _
    rw [execWrBorder, h]

theorem exec_decodeRegRead (off : Offset) (s : State) : ∃ v, exec (decodeRegRead off) s = answerRead v s := by
  unfold decodeRegRead
  split_ifs <;> exact ⟨_, rfl⟩

theorem exec_decodeRegWrite (off : Offset) (d : Word) (s : State) :
    ∃ u, exec (decodeRegWrite off d) s = answerWrite u := by
  by_cases border : off = 0x014
  · rw [border]
    exact exec_wrBorder_answers d s
  · rw [decodeRegWrite, if_neg border]
    split_ifs <;> exact ⟨_, rfl⟩

/-- R111: a host read answers data, or ends with the error response. -/
theorem exec_decodeRead (n : AccessSize) (off : Offset) (s : State) :
    (∃ v, exec (decodeRead n off) s = answerRead v s) ∨ ∃ c, exec (decodeRead n off) s = raiseBusError c off s := by
  by_cases aligned : Aligned n off
  case neg => exact .inr ⟨_, (exec_of_misaligned aligned 0 s).1⟩
  cases n with
  | byte | half =>
    rw [decodeRead]
    split_ifs
    · exact .inr ⟨_, rfl⟩
    all_goals exact .inl ⟨_, rfl⟩
  | word =>
    rw [decodeRead]
    split_ifs
    · exact .inl (exec_decodeRegRead off s)
    all_goals exact .inl ⟨_, rfl⟩

/-- R111: a host write ends with the write-complete response, or with the error response. -/
theorem exec_decodeWrite (n : AccessSize) (off : Offset) (d : Word) (s : State) :
    (∃ u, exec (decodeWrite n off d) s = answerWrite u) ∨ ∃ c, exec (decodeWrite n off d) s = raiseBusError c off s := by
  by_cases aligned : Aligned n off
  case neg => exact .inr ⟨_, (exec_of_misaligned aligned d s).2⟩
  cases n with
  | byte | half =>
    rw [decodeWrite]
    split_ifs
    · exact .inr ⟨_, rfl⟩
    all_goals exact .inl ⟨_, rfl⟩
  | word =>
    rw [decodeWrite]
    split_ifs
    · exact .inl (exec_decodeRegWrite off d s)
    all_goals exact .inl ⟨_, rfl⟩

/-! Events that are not enabled (R81). -/

section
variable {s : State}

/-- R149: SYNC_DONE finds the channel idle or the transfer incomplete. -/
theorem exec_evSyncDone_refused (h : ¬ s.syncDoneEnabled) :
    exec .evSyncDone s = .refused .syncDoneNotEnabled := if_neg h

/-- R151: PIX_DONE finds the channel idle or the transfer incomplete. -/
theorem exec_evPixDone_refused (h : ¬ s.pixDoneEnabled) :
    exec .evPixDone s = .refused .pixDoneNotEnabled := if_neg h

/-- R103: DISPATCH needs EN and SYNC_PEND. -/
theorem exec_evDispatch_refused (h : ¬ s.dispatchEnabled) :
    exec .evDispatch s = .refused .dispatchNotEnabled := if_neg h

/-- R137: FEED needs EN and PIX_PEND. -/
theorem exec_evFeed_refused (h : ¬ s.feedEnabled) : exec .evFeed s = .refused .feedNotEnabled := if_neg h

/-- R149: a model that does not step element reads has no next element. -/
theorem nextElement_not_stepped (c : Channel) (x : Option Transfer) :
    nextElement c x false = .error .elementsNotStepped := rfl

theorem syncElementRead_refused (h : s.stepsElements = false) :
    syncElementRead s = .refused .elementsNotStepped := by
  rw [syncElementRead, h, nextElement_not_stepped]

theorem pixElementRead_refused (h : s.stepsElements = false) (v : Byte) :
    pixElementRead v s = .refused .elementsNotStepped := by
  rw [pixElementRead, h, nextElement_not_stepped]

/-! The step with no stimulus waiting (R80, R168). -/

/-- With no stimulus waiting the block steps of its own accord. -/
theorem step_of_inputs_nil (h : s.inputs = []) : step s = ownStep s := by
  rw [step, h]

/-- FEED comes first. -/
theorem ownStep_of_feed (h : s.feedEnabled) : ownStep s = exec .evFeed s := if_pos h

/-- DISPATCH comes when there is no FEED. -/
theorem ownStep_of_dispatch (noFeed : ¬ s.feedEnabled) (h : s.dispatchEnabled) : ownStep s = exec .evDispatch s :=
  (if_neg noFeed).trans (if_pos h)

/-- The state is held when neither is enabled. -/
theorem ownStep_of_neither (noFeed : ¬ s.feedEnabled) (noDispatch : ¬ s.dispatchEnabled) :
    ownStep s = .next (s.present .quiet) :=
  (if_neg noFeed).trans (if_neg noDispatch)

end

end Sys2Proof.Machine
end

section
/-! THEOREMS. The statements of 30_encoding: the encoding read back both ways, the operand ranges, the words that are refused, what every host word answers, and the step with no stimulus or a placed word waiting. -/

namespace Sys2Proof.Machine

/-- Settles O1: row by row, the decode steps find the row's class, size, alignment and region in its word. -/
theorem decodeOfEncodeGivesTheOperation : Obligations.DecodeOfEncodeGivesTheOperation :=
  fun _ wf => decode_encode wf

/-- Settles O2: each decode step keeps the fields it has read, and a host write keeps its datum. -/
theorem encodeOfDecodeGivesTheWord : Obligations.EncodeOfDecodeGivesTheWord := by
  refine fun a => ⟨encode_decode_op a, fun cls legal => ?_⟩
  obtain ⟨n, size⟩ := exists_sizeOfSz legal
  rw [decode_of_write cls size, encode_decodeWrite size]
  rfl

/-- Settles O3: the branch that a decode step takes is the range of the operation it gives. -/
theorem decodedOperationsAreWellFormed : Obligations.DecodedOperationsAreWellFormed := by
  intro a
  rcases decode_cases a with ⟨-, e⟩ | ⟨-, e⟩ | ⟨-, -, e⟩ | ⟨n, -, -, e⟩ | ⟨n, -, -, e⟩ <;> rw [e]
  · rfl
  · exact decodeEvent_wellFormed _
  · rfl
  · exact decodeRead_wellFormed n _
  · exact decodeWrite_wellFormed n _ _

/-- Settles O8: the three illegal spaces of R84 decode to the three rows that stand for them. -/
theorem illegalWordsAreRefused : Obligations.IllegalWordsAreRefused := by
  refine ⟨fun a s illegal => ?_, fun b w off s => ⟨rfl, rfl, rfl⟩⟩
  rcases illegal with cls | ⟨host, size⟩ | ⟨cls, event⟩
  · rw [decode_of_class11 cls]
    rfl
  · rw [decode_of_size11 host size]
    rfl
  · rw [decode_of_event cls, decodeEvent_of_illegal (five_le_opBody event)]
    rfl

/-- Settles O9: a read answers data or the error response, a write the write-complete or the error response. -/
theorem hostWordsAlwaysComplete : Obligations.HostWordsAlwaysComplete := by
  rintro a s ⟨cls | cls, legal⟩ <;> obtain ⟨n, size⟩ := exists_sizeOfSz legal
  · rw [decode_of_read cls size]
    refine (exec_decodeRead n (opOff a.op) s).elim (fun ⟨v, e⟩ => ?data) (fun ⟨c, e⟩ => ?error)
    case data => exact ⟨_, e, fun _ => ⟨rfl, .inl ⟨v, rfl⟩⟩, fun write => by simp [cls] at write⟩
    case error => exact ⟨_, e, fun _ => ⟨rfl, .inr ⟨c, _, rfl⟩⟩, fun write => by simp [cls] at write⟩
  · rw [decode_of_write cls size]
    refine (exec_decodeWrite n (opOff a.op) a.wdata s).elim (fun ⟨u, e⟩ => ?done) (fun ⟨c, e⟩ => ?error)
    case done => exact ⟨_, e, fun read => by simp [cls] at read, fun _ => .inl rfl⟩
    case error => exact ⟨_, e, fun read => by simp [cls] at read, fun _ => .inr ⟨c, _, rfl⟩⟩

/-- Settles O12: each word is the word of its row, whose operand range is the clause's premise. -/
theorem reservedSpaceReadsZero : Obligations.ReservedSpaceReadsZero := by
  intro op d s cls
  refine ⟨fun h size => ⟨?_, rfl⟩, fun h size => ⟨?_, rfl⟩, fun h size aligned => ⟨?_, rfl⟩,
    fun h size aligned => ⟨?_, rfl⟩⟩
  · exact decode_eq_of_readWord cls size (by decide) rfl (decide_eq_true h)
  · exact decode_eq_of_readWord cls size (by decide) rfl (decide_eq_true h)
  · exact decode_eq_of_readWord cls size (by decide) rfl (decide_eq_true ⟨h, aligned⟩)
  · exact decode_eq_of_readWord cls size (by decide) rfl (decide_eq_true ⟨h, aligned⟩)

/-- Settles O16: each word is the word of its row, whose operand range is the clause's premise. -/
theorem windowWritesChangeNothing : Obligations.WindowWritesChangeNothing := by
  intro op d s cls
  refine ⟨fun h size => ⟨?_, rfl⟩, fun h size => ⟨?_, rfl⟩, fun h size aligned => ⟨?_, rfl⟩,
    fun h size aligned => ⟨?_, rfl⟩, fun h size => ⟨?_, rfl⟩, fun h size aligned => ⟨?_, rfl⟩,
    fun h size aligned => ⟨?_, rfl⟩⟩
  · exact decode_eq_of_writeWord cls size rfl (decide_eq_true h)
  · exact decode_eq_of_writeWord cls size rfl (decide_eq_true h)
  · exact decode_eq_of_writeWord cls size rfl (decide_eq_true ⟨h, aligned⟩)
  · exact decode_eq_of_writeWord cls size rfl (decide_eq_true ⟨h, aligned⟩)
  · exact decode_eq_of_writeWord cls size rfl (decide_eq_true h)
  · exact decode_eq_of_writeWord cls size rfl (decide_eq_true ⟨h, aligned⟩)
  · exact decode_eq_of_writeWord cls size rfl (decide_eq_true ⟨h, aligned⟩)

/-- Settles O4, by running the decoder on the fourteen words. -/
theorem wordsOfTheSpecDecode : Obligations.WordsOfTheSpecDecode := by
  unfold Obligations.WordsOfTheSpecDecode
  decide

/-- Settles O33: each step's enabling condition fails. -/
theorem eventsNotEnabledAreRefused : Obligations.EventsNotEnabledAreRefused := by
  intro s
  refine ⟨fun idle => ?syncIdle, fun idle => ?pixIdle,
    fun x steps left => ⟨fun busy => ?syncLeft, fun busy => ?pixLeft⟩, fun off => ?dispatch, fun off => ?feed,
    fun skips => ⟨syncElementRead_refused skips, pixElementRead_refused skips⟩⟩
  case syncIdle => exact exec_evSyncDone_refused (by simp [s.syncDoneEnabled_iff, idle])
  case pixIdle => exact exec_evPixDone_refused (by simp [s.pixDoneEnabled_iff, idle])
  case syncLeft => exact exec_evSyncDone_refused (by simp [s.syncDoneEnabled_iff, busy, steps, left])
  case pixLeft => exact exec_evPixDone_refused (by simp [s.pixDoneEnabled_iff, busy, steps, left])
  case dispatch => exact exec_evDispatch_refused (by rcases off with h | h <;> simp [s.dispatchEnabled_iff, h])
  case feed => exact exec_evFeed_refused (by rcases off with h | h <;> simp [s.feedEnabled_iff, h])

/-- Settles O53: the three branches of the block's own step. -/
theorem blockStepsOfItsOwnAccord : Obligations.BlockStepsOfItsOwnAccord := by
  intro s idle
  rw [step_of_inputs_nil idle]
  refine ⟨fun en pix => ?feed, fun en noPix sync => ?dispatch, fun off => ?held⟩
  case feed => exact ownStep_of_feed (s.feedEnabled_iff.mpr ⟨en, pix⟩)
  case dispatch => exact ownStep_of_dispatch (by simp [s.feedEnabled_iff, noPix]) (s.dispatchEnabled_iff.mpr ⟨en, sync⟩)
  case held =>
    refine ownStep_of_neither ?_ ?_ <;> rcases off with en | ⟨pix, sync⟩
    · simp [s.feedEnabled_iff, en]
    · simp [s.feedEnabled_iff, pix]
    · simp [s.dispatchEnabled_iff, en]
    · simp [s.dispatchEnabled_iff, sync]

/-- Settles O54: the placed word is the first stimulus, and with it taken the others wait as before. -/
theorem placedWordRunsNext : Obligations.PlacedWordRunsNext := by
  intro nbits w i s decodes
  obtain ⟨-, read⟩ := Option.ite_none_right_eq_some.mp decodes
  calc step (s.withFetchWord nbits w)
      = take (.access (accessOfBits nbits w).op (accessOfBits nbits w).wdata) s := step_of_inputs_cons rfl
    _ = exec i s := congrArg (exec · s) (Option.some.inj read)

end Sys2Proof.Machine
end

section
/-! SUPPORT. What the statements of 40_tables need beside the laws of Tables: the layout as runs of kinds of code, the pulses of each vertical-sync table, the code that cedes its tick, and the runs of lines that CLASSIFY sends to one table. -/

namespace Sys2Proof.Machine

/-! The layout (R90, R91, R95). -/

theorem tickSource_eq_picture (c : Byte) : tickSource c = .picture ↔ c = CodeKind.pass.code 0 := by
  simp [tickSource]

/-- R95: exactly PASS cedes its tick; the pass-through class bit tells it from every other kind. -/
theorem tickSource_code (k : CodeKind) (b : BitVec 6) : tickSource (k.code b) = .picture ↔ k = .pass := by
  rw [tickSource_eq_picture]
  refine ⟨fun pass => ?_, ?_⟩
  · simpa [passBit_code] using congrArg passBit pass
  · rintro rfl
    rfl

/-- R46: in a state whose tables show the border colour, `T[i]` is the code of its slot's kind. -/
theorem State.TablesShowBorder.read_eq {s : State} (h : s.TablesShowBorder) {i : Nat} (hi : i < 160) :
    s.tbl.read i = (kindAt i).code s.border := by
  rw [h.2 i hi, layoutCode_of_lt hi]

set_option maxRecDepth 4000 in
/-- R90: the kinds of the 160 slots, table by table. -/
theorem map_kindAt_range : (List.range 160).map kindAt =
    (List.replicate 14 CodeKind.sync ++ List.replicate 2 CodeKind.blank ++ List.replicate 14 CodeKind.sync ++ List.replicate 2 CodeKind.blank)
    ++ (List.replicate 14 CodeKind.sync ++ List.replicate 2 CodeKind.blank ++ List.replicate 1 CodeKind.sync ++ List.replicate 15 CodeKind.blank)
    ++ (List.replicate 1 CodeKind.sync ++ List.replicate 15 CodeKind.blank ++ List.replicate 1 CodeKind.sync ++ List.replicate 15 CodeKind.blank)
    ++ (List.replicate 2 CodeKind.sync ++ List.replicate 30 CodeKind.border)
    ++ (List.replicate 2 CodeKind.sync ++ List.replicate 6 CodeKind.border ++ List.replicate 20 CodeKind.pass
        ++ List.replicate 4 CodeKind.border) := by
  decide

/-- R91: the layout's bytes are the codes of its kinds. -/
theorem map_layoutCode_range (b : BitVec 6) :
    (List.range 160).map (layoutCode b) = ((List.range 160).map kindAt).map (fun k => k.code b) := by
  rw [List.map_map]
  exact List.map_congr_left fun i hi => layoutCode_of_lt (List.mem_range.mp hi) b

/-! The vertical-sync pulses (R90, R99). -/

/-- R99: the number of SYNC slots in each half line of a table. -/
def halfLinePulses (k : Table) : List Nat :=
  [0, 16].map fun h => ((List.range 16).filter (fun s => slotKind k (h + s) = .sync)).length

theorem halfLinePulses_ll : halfLinePulses .ll = [14, 14] := by decide

theorem halfLinePulses_ls : halfLinePulses .ls = [14, 1] := by decide

theorem halfLinePulses_ss : halfLinePulses .ss = [1, 1] := by decide

/-! The lines of a frame (R98, R100). -/

theorem classify_eq_ll {v : BitVec 9} (h : 1 ≤ v.toNat ∧ v.toNat ≤ 2) : classify v = .ll := by
  grind [classify]

theorem classify_eq_ls {v : BitVec 9} (h : v.toNat = 3) : classify v = .ls := by
  grind [classify]

theorem classify_eq_ss {v : BitVec 9} (h : 4 ≤ v.toNat ∧ v.toNat ≤ 5 ∨ 310 ≤ v.toNat ∧ v.toNat ≤ 312) :
    classify v = .ss := by
  grind [classify]

theorem classify_eq_bd {v : BitVec 9} (h : 6 ≤ v.toNat ∧ v.toNat ≤ 36 ∨ 293 ≤ v.toNat ∧ v.toNat ≤ 309) :
    classify v = .bd := by
  grind [classify]

theorem classify_eq_al {v : BitVec 9} (h : v.toNat = 0 ∨ 37 ≤ v.toNat ∧ v.toNat ≤ 292 ∨ 313 ≤ v.toNat) :
    classify v = .al := by
  grind [classify]

/-- A run of lines that CLASSIFY all sends to table `k`. -/
theorem map_classify_range' {first len : Nat} {k : Table} (nineBits : first + len ≤ 512)
    (h : ∀ v : BitVec 9, first ≤ v.toNat → v.toNat < first + len → classify v = k) :
    (List.range' first len).map (fun n => classify (BitVec.ofNat 9 n)) = List.replicate len k := by
  refine List.eq_replicate_iff.mpr ⟨by simp, fun t ht => ?_⟩
  obtain ⟨n, hn, rfl⟩ := List.mem_map.mp ht
  obtain ⟨lower, upper⟩ := List.mem_range'_1.mp hn
  have line : (BitVec.ofNat 9 n).toNat = n := Nat.mod_eq_of_lt (upper.trans_le nineBits)
  exact h _ (by rwa [line]) (by rwa [line])

set_option maxRecDepth 4000 in
/-- R98: the 312 lines, cut where the table changes. -/
theorem map_succ_range_312 : (List.range 312).map (· + 1) =
    List.range' 1 2 ++ List.range' 3 1 ++ List.range' 4 2 ++ List.range' 6 31 ++ List.range' 37 256
      ++ List.range' 293 17 ++ List.range' 310 3 := by
  decide

end Sys2Proof.Machine
end

section
/-! THEOREMS. The statements of 40_tables: the border slots and the gap in every state whose tables show the border, the bytes of the layout, the order of a frame's tables, and the vertical-sync pulses. -/

namespace Sys2Proof.Machine

/-- Settles O37: exactly the BORDER codes carry the flag, and the layout names their slots. -/
theorem borderFlagMarksTheBorderSlots : Obligations.BorderFlagMarksTheBorderSlots := by
  intro s shows i hi
  rw [shows.read_eq hi, borderFlag_code, decide_eq_true_iff]
  exact kindAt_border i hi

/-- Settles O38: exactly PASS cedes the tick, and the layout names its slots. -/
theorem onlyTheGapCedesTheTick : Obligations.OnlyTheGapCedesTheTick := by
  intro s shows i hi
  rw [shows.read_eq hi, tickSource_code]
  exact kindAt_pass i hi

/-- Settles O24: seven runs of lines, each sent to one table. -/
theorem frameSendsTheTablesInOrder : Obligations.FrameSendsTheTablesInOrder := by
  have lines := congrArg (List.map fun n => classify (BitVec.ofNat 9 n)) map_succ_range_312
  rw [List.map_map] at lines
  refine lines.trans ?_
  simp only [List.map_append]
  rw [map_classify_range' (by decide) fun v _ _ => classify_eq_ll (by omega),
    map_classify_range' (by decide) fun v _ _ => classify_eq_ls (by omega),
    map_classify_range' (by decide) fun v _ _ => classify_eq_ss (by omega),
    map_classify_range' (by decide) fun v _ _ => classify_eq_bd (by omega),
    map_classify_range' (by decide) fun v _ _ => classify_eq_al (by omega),
    map_classify_range' (by decide) fun v _ _ => classify_eq_bd (by omega),
    map_classify_range' (by decide) fun v _ _ => classify_eq_ss (by omega)]

/-- Settles O25: the eight lines send SS three times, LL twice, LS once and SS twice. -/
theorem verticalSyncPulsesAcrossTheBoundary : Obligations.VerticalSyncPulsesAcrossTheBoundary := by
  have tables : ([310, 311, 312, 1, 2, 3, 4, 5] : List (BitVec 9)).map classify =
      [.ss, .ss, .ss, .ll, .ll, .ls, .ss, .ss] := by decide
  have pulses := congrArg (List.flatMap halfLinePulses) tables
  rw [List.flatMap_map] at pulses
  refine pulses.trans ?_
  simp [halfLinePulses_ll, halfLinePulses_ls, halfLinePulses_ss]

/-- Settles O36: the bytes of each run of slots are the code of the run's kind. -/
theorem referenceLayoutBytes : Obligations.ReferenceLayoutBytes := by
  intro b
  rw [map_layoutCode_range, map_kindAt_range]
  simp only [List.map_append, List.map_replicate, CodeKind.code, borderCode_eq_ofNat]

end Sys2Proof.Machine
end

section
/-! SUPPORT. What the statements of 41_dispatch need beside the laws of State and Exec: DISPATCH and the picture side, the register words after a commit, one line of the sync side, and the count of lines that VLINE and FRAME hold together. -/

namespace Sys2Proof.Machine

/-- R69, R80: event 2 is DISPATCH, whatever the datum lines carry. -/
theorem decode_dispatchWord (d : Word) : decode ⟨0x8002, d⟩ = .evDispatch := by
  have cls : opClass 0x8002 = 0b10 := by decide
  have event : decodeEvent (opBody 0x8002) = .evDispatch := by decide
  rw [decode_of_event (a := ⟨0x8002, d⟩) cls, event]

section
variable (s : State)

/-- R28: counting FRAME modulo 2^32 is adding to the register. -/
theorem ofNat_frame_succ : BitVec.ofNat 32 (s.frame.toNat + 1) = s.frame + 1 := by
  simp [BitVec.ofNat_add]

/-- R107: other values of BLINE, BORDER and `T` go through DISPATCH unread and unwritten. -/
theorem State.dispatch_pictureSide (bl : BitVec 9) (bo : BitVec 6) (m : Memory) :
    State.dispatch { s with bline := bl, border := bo, tbl := m } =
      { s.dispatch with bline := bl, border := bo, tbl := m } := by
  rcases s.dispatch_cases with ⟨hv, e⟩ | ⟨hv, hu, e⟩ | ⟨hv, hu, e⟩ <;> rw [e]
  · exact State.dispatch_within _ hv
  · exact State.dispatch_wrap _ hv hu
  · exact State.dispatch_commit _ hv hu

/-- R121: GEOM as a number, HEIGHT above the current width. -/
theorem State.geomWord_eq_ofNat :
    s.geomWord = BitVec.ofNat 32 (0x10000 * 256 + Config.width s.curPreset) := by
  have fields : ∀ p : Preset, BitVec.ofNat 16 256 ++ BitVec.ofNat 16 (Config.width p) =
      BitVec.ofNat 32 (0x10000 * 256 + Config.width p) := by decide
  exact fields s.curPreset

/-- R103: DISPATCH presents the start of the table of the line VLINE holds. -/
@[simp] theorem State.dispatch_out : s.dispatch.out = .syncStart (tableAddr s.plat (classify s.vline)) 32 :=
  State.advanceLine_out _

/-! One line (R88, R149). -/

variable {s}

/-- R69, R103: the word of DISPATCH in a state that enables it. -/
theorem take_evDispatch (en : s.en = true) (pend : s.syncPend = true) :
    take (stimulusOf .evDispatch) s = .next s.dispatch :=
  (take_stimulusOf rfl s).trans (exec_evDispatch (s.dispatchEnabled_iff.mpr ⟨en, pend⟩))

/-- R69, R149: the word of SYNC_DONE when the transfer in flight is taken as complete. -/
theorem take_evSyncDone {x : Transfer} (hx : s.sch = some x) (complete : s.stepsElements = true → x.done = x.count) :
    take (stimulusOf .evSyncDone) s = .next s.completeSync :=
  (take_stimulusOf rfl s).trans (exec_evSyncDone (s.syncDoneEnabled_iff.mpr ⟨x, hx, complete⟩))

/-- R148, R149: after a DISPATCH, the element reads the model steps complete the transfer, and change only what the
SYNC_DONE after them overwrites. -/
theorem runStimuli_lineReads_syncDone :
    runStimuli (List.replicate s.lineReads .syncRead ++ [stimulusOf .evSyncDone]) s.dispatch =
      .next s.dispatch.completeSync := by
  cases steps : s.stepsElements with
  | false =>
    rw [State.lineReads, if_neg (by simp [steps])]
    exact runStimuli_cons_of_next (take_evSyncDone s.dispatch_sch (by simp [steps]))
  | true =>
    have loaded : s.dispatch.sch = some ⟨tableAddr s.dispatch.plat (classify s.vline), 32, 0⟩ := by
      rw [State.dispatch_plat]
      exact s.dispatch_sch
    obtain ⟨o, reads⟩ := runStimuli_syncReads (s.dispatch_stepsElements.trans steps) loaded 32 (by decide)
    rw [State.lineReads, if_pos steps, Config.tableLen, runStimuli_append_of_next reads]
    exact runStimuli_cons_of_next (take_evSyncDone rfl fun _ => rfl)

/-- R88: what one line does. -/
theorem runStimuli_line (en : s.en = true) (pend : s.syncPend = true) :
    runStimuli (lineSteps s.lineReads) s = .next s.dispatch.completeSync :=
  (runStimuli_cons_of_next (take_evDispatch en pend)).trans runStimuli_lineReads_syncDone

theorem pseudoRepeat_succ (n : Nat) (body : List Stimulus) :
    pseudoRepeat (n + 1) body = body ++ pseudoRepeat n body := by
  rw [pseudoRepeat, List.replicate_succ, List.flatten_cons, pseudoRepeat]

/-! The count of lines (R109). -/

/-- R109: the lines since VLINE was 1 and FRAME 0, counted modulo 312 × 2^32. -/
def State.lineCount (s : State) : Nat := 312 * s.frame.toNat + (s.vline.toNat - 1)

theorem State.VlineLegal.bounds (h : s.VlineLegal) : 1 ≤ s.vline.toNat ∧ s.vline.toNat ≤ 312 := h

theorem State.VlineLegal.lineCount_lt (h : s.VlineLegal) : s.lineCount < 312 * 2 ^ 32 := by
  have := s.frame.isLt
  obtain ⟨first, last⟩ := h.bounds
  unfold State.lineCount
  omega

theorem State.VlineLegal.vline_eq (h : s.VlineLegal) : s.vline.toNat = s.lineCount % 312 + 1 := by
  obtain ⟨first, last⟩ := h.bounds
  unfold State.lineCount
  omega

theorem State.VlineLegal.frame_eq (h : s.VlineLegal) : s.frame.toNat = s.lineCount / 312 := by
  obtain ⟨first, last⟩ := h.bounds
  unfold State.lineCount
  omega

/-- R103, R109: a DISPATCH counts one line, within a frame in VLINE and at the frame boundary in FRAME. -/
theorem State.VlineLegal.lineCount_dispatch (h : s.VlineLegal) :
    s.dispatch.lineCount = (s.lineCount + 1) % (312 * 2 ^ 32) := by
  have := s.frame.isLt
  have firstLine : (1 : BitVec 9).toNat = 1 := rfl
  obtain ⟨first, last⟩ := h.bounds
  rcases s.dispatch_cases with ⟨hv, e⟩ | ⟨hv, -, e⟩ | ⟨hv, -, e⟩ <;> rw [e] <;>
    simp only [State.lineCount, BitVec.toNat_ofNat, firstLine]
  · omega
  · omega
  · omega

/-- R109: what `n` lines do to the fields that the next line depends on. -/
theorem runStimuli_lines (n : Nat) (en : s.en = true) (pend : s.syncPend = true) (legal : s.VlineLegal) :
    ∃ t, runStimuli (pseudoRepeat n (lineSteps s.lineReads)) s = .next t ∧ t.en = true ∧ t.syncPend = true ∧
      t.plat = s.plat ∧ t.VlineLegal ∧ t.lineCount = (s.lineCount + n) % (312 * 2 ^ 32) := by
  induction n generalizing s with
  | zero => exact ⟨s, rfl, en, pend, rfl, legal, (Nat.mod_eq_of_lt legal.lineCount_lt).symm⟩
  | succ n ih =>
    have reads : s.dispatch.completeSync.lineReads = s.lineReads := by simp [State.lineReads]
    have count : s.dispatch.completeSync.lineCount = (s.lineCount + 1) % (312 * 2 ^ 32) := legal.lineCount_dispatch
    obtain ⟨t, run, ten, tpend, tplat, tlegal, tcount⟩ :=
      ih (s := s.dispatch.completeSync) (by simpa) rfl s.dispatch_vlineLegal
    refine ⟨t, ?run, ten, tpend, tplat.trans s.dispatch_plat, tlegal, ?count⟩
    case run => rw [pseudoRepeat_succ, runStimuli_append_of_next (runStimuli_line en pend), ← reads, run]
    case count => rw [tcount, count, Nat.mod_add_mod, Nat.add_right_comm, Nat.add_assoc]

end

end Sys2Proof.Machine
end

section
/-! THEOREMS. The statements of 41_dispatch: what DISPATCH does and leaves, the decision table of CLASSIFY, the count of lines and frames, and what a commit shows. -/

namespace Sys2Proof.Machine

/-- Settles O22: the three cases of DISPATCH, within a frame, at the frame boundary, and there with an update pending. -/
theorem dispatchStartsTheLineAndAdvances : Obligations.DispatchStartsTheLineAndAdvances := by
  refine fun d s => ⟨decode_dispatchWord d, fun en pend => ?_⟩
  have run := exec_evDispatch (s.dispatchEnabled_iff.mpr ⟨en, pend⟩)
  rw [run, ← ofNat_frame_succ]
  refine ⟨fun hv => ?within, fun hv hu => ?wrap, fun hv hu => ?commit⟩
  case within => exact congrArg _ (s.dispatch_within hv)
  case wrap => exact congrArg _ (s.dispatch_wrap (Nat.lt_succ_iff.mp hv) hu)
  case commit => exact congrArg _ (s.dispatch_commit (Nat.lt_succ_iff.mp hv) hu)

/-- Settles O26: VLINE − 1 and FRAME are the remainder and the quotient by 312 of the count of lines. -/
theorem linesAdvanceVlineAndFrame : Obligations.LinesAdvanceVlineAndFrame := by
  intro n s en pend legal
  obtain ⟨t, run, ten, tpend, tplat, tlegal, tcount⟩ := runStimuli_lines n en pend legal
  have start := exec_evDispatch (t.dispatchEnabled_iff.mpr ⟨ten, tpend⟩)
  refine ⟨t, run, ten, tpend, tplat, ?vline, ?frame, t.dispatch, start, ?out⟩
  case vline =>
    rw [tlegal.vline_eq, tcount, Nat.mod_mul_right_mod, State.lineCount, Nat.add_assoc, Nat.mul_add_mod]
  case frame =>
    rw [tlegal.frame_eq, tcount, Nat.mod_mul_right_div_self, State.lineCount, Nat.add_assoc,
      Nat.mul_add_div (by decide)]
  case out => rw [State.dispatch_out, tplat]

/-- Settles O27: 312 lines add one frame and no line to the count. -/
theorem frameOf312LinesReturnsVline : Obligations.FrameOf312LinesReturnsVline := by
  intro s en pend legal
  obtain ⟨t, run, -, -, -, vline, frame, -⟩ := linesAdvanceVlineAndFrame 312 s en pend legal
  obtain ⟨first, last⟩ := legal.bounds
  refine ⟨t, run, BitVec.eq_of_toNat_eq ?_, BitVec.eq_of_toNat_eq ?_⟩
  · omega
  · rw [frame, BitVec.toNat_add, Nat.add_div_right _ (by decide), Nat.div_eq_of_lt (by omega)]
    rfl

/-- Settles O31: an enabled DISPATCH does `State.dispatch`, which neither reads nor writes the picture side. -/
theorem dispatchIgnoresThePictureSide : Obligations.DispatchIgnoresThePictureSide := by
  intro s t bl bo m h
  cases effect_of_exec h with
  | answer o only =>
    obtain ⟨-, -, -, notDispatch, -⟩ := only
    exact absurd rfl notDispatch
  | dispatch enabled =>
    exact ⟨s.dispatch_bline, s.dispatch_border, s.dispatch_tbl,
      (exec_evDispatch (s := { s with bline := bl, border := bo, tbl := m }) enabled).trans (congrArg _ (s.dispatch_pictureSide bl bo m))⟩

/-- Settles O50: the commit puts the pending pair in the current one, of which all three are made, and leaves the
transfer in flight. -/
theorem commitTakesEffectAtOnce : Obligations.CommitTakesEffectAtOnce := by
  intro s en pend hv hu
  have run := exec_evDispatch (s.dispatchEnabled_iff.mpr ⟨en, pend⟩)
  rw [s.dispatch_commit hv hu] at run
  exact ⟨_, run, rfl, State.geomWord_eq_ofNat _, rfl, fun _ => rfl⟩

/-- Settles O23: the ranges go to their tables, and every other value to AL. -/
theorem classifyFollowsTheDecisionTable : Obligations.ClassifyFollowsTheDecisionTable := by
  refine fun v => ⟨fun h => ?ll, fun h => ?ls, fun h => ?ssTop, fun h => ?bdTop, fun h => ?al, fun h => ?bdBottom,
    fun h => ?ssBottom, fun h => ?outside⟩
  case ll => exact congrArg _ (classify_eq_ll h)
  case ls => exact congrArg _ (classify_eq_ls h)
  case ssTop => exact congrArg _ (classify_eq_ss (.inl h))
  case bdTop => exact congrArg _ (classify_eq_bd (.inl h))
  case al => exact congrArg _ (classify_eq_al (.inr (.inl h)))
  case bdBottom => exact congrArg _ (classify_eq_bd (.inr h))
  case ssBottom => exact congrArg _ (classify_eq_ss (.inr h))
  case outside => exact congrArg _ (classify_eq_al (by omega))

end Sys2Proof.Machine
end

section
/-! SUPPORT. What the statements of 42_host_access need beside the laws of Encoding and Memory: the decoding of a register's word, the answers as next states, the register words as numbers, a table read as a sum, and what the datum of a CTRL, BORDER or MODE write asks for. -/

namespace Sys2Proof

/-- R69: a host read ignores the datum lines. -/
theorem decode_read_datum {op : OpWord} (cls : opClass op = 0b00) (d e : Word) :
    decode ⟨op, d⟩ = decode ⟨op, e⟩ := by
  simp [decode, cls]

/-- R78: the word of a register read decodes to it, whatever the datum lines carry. -/
theorem decode_of_registerRead {i : Instr} {op : OpWord} (word : encode i = ⟨op, 0⟩) (cls : opClass op = 0b00)
    (wf : i.WellFormed) (d : Word) : decode ⟨op, d⟩ = i := by
  rw [decode_read_datum cls d 0, ← word, decode_encode wf]

/-- R78: the word and datum of a register write decode to it. -/
theorem decode_of_registerWrite {i : Instr} {a : Access} (word : encode i = a) (wf : i.WellFormed) : decode a = i :=
  word ▸ decode_encode wf

end Sys2Proof

namespace Sys2Proof.Machine

/-! The answer to a host access, as a next state (R111). -/

theorem answerRead_of_eq {v w : Word} (h : v = w) (s : State) : answerRead v s = .next { s with out := .rdata w } :=
  h ▸ rfl

theorem answerWrite_of_eq {u v : State} (h : u = v) : answerWrite u = .next { v with out := .writeDone } :=
  h ▸ rfl

/-! The register words made from fields, as numbers (R112, R113, R118). -/

section
variable (s : State)

/-- R112: CTRL as a number. -/
theorem State.ctrlWord_eq_ofNat : s.ctrlWord = BitVec.ofNat 32 s.en.toNat := by
  have field : ∀ en : Bool, (BitVec.ofBool en).setWidth 32 = BitVec.ofNat 32 en.toNat := by decide
  exact field s.en

/-- R113: STATUS as a number, UPD above PIX_PEND above SYNC_PEND. -/
theorem State.statusWord_eq_ofNat :
    s.statusWord = BitVec.ofNat 32 (4 * s.upd.toNat + 2 * s.pixPend.toNat + s.syncPend.toNat) := by
  have fields : ∀ upd pix sync : Bool, (BitVec.ofBool upd ++ BitVec.ofBool pix ++ BitVec.ofBool sync).setWidth 32 =
      BitVec.ofNat 32 (4 * upd.toNat + 2 * pix.toNat + sync.toNat) := by decide
  exact fields s.upd s.pixPend s.syncPend

/-- R118: MODE as a number, PEND_PRESET above CUR_PRESET. -/
theorem State.modeWord_eq_ofNat : s.modeWord = BitVec.ofNat 32 (16 * s.pendPreset.val + s.curPreset.val) := by
  have fields : ∀ pend cur : Preset, (presetBits pend ++ (0 : BitVec 2) ++ presetBits cur).setWidth 32 =
      BitVec.ofNat 32 (16 * pend.val + cur.val) := by decide
  exact fields s.pendPreset s.curPreset

end

/-! Table reads (R132). -/

/-- R53, R132: a little-endian read is the sum of its bytes, each at its weight, modulo 2^32. -/
theorem Memory.readLE_eq_sum (m : Memory) (i n : Nat) :
    m.readLE i n = BitVec.ofNat 32 (∑ j ∈ Finset.range n, (m.read (i + j)).toNat * 2 ^ (8 * j)) := by
  induction n generalizing i with
  | zero => rfl
  | succ n ih =>
    have higher : ∑ j ∈ Finset.range n, (m.read (i + (j + 1))).toNat * 2 ^ (8 * (j + 1)) =
        (∑ j ∈ Finset.range n, (m.read (i + 1 + j)).toNat * 2 ^ (8 * j)) * 2 ^ 8 := by
      rw [Finset.sum_mul]
      refine Finset.sum_congr rfl fun j _ => ?_
      rw [Nat.add_right_comm i, Nat.add_assoc i, Nat.mul_succ, Nat.pow_add, Nat.mul_assoc]
    rw [Finset.sum_range_succ', higher, Memory.readLE, ih]
    apply BitVec.eq_of_toNat_eq
    simp [Nat.shiftLeft_eq, Nat.add_comm]

/-- R132: a read of the table window, by the offset and the size in bytes. -/
theorem readTable_eq (n : AccessSize) (off : Offset) (s : State) :
    readTable n off s = .next { s with out := .rdata (BitVec.ofNat 32
      (∑ j ∈ Finset.range n.bytes, (s.tbl.read (off.toNat - 0x100 + j)).toNat * 2 ^ (8 * j))) } :=
  answerRead_of_eq (Memory.readLE_eq_sum _ _ _) s

/-! What the datum of a register write asks for (R122, R127, R128). -/

section
variable (s : State) {d : Word}

/-- R122: a request while `EN = 0`. -/
theorem State.enable_of_request (request : d.getLsbD 0 = true) (disabled : s.en = false) :
    s.enable d = { s with en := true, syncPend := true, pixPend := true } := if_pos ⟨request, disabled⟩

/-- R122: no request, or one while `EN = 1`. -/
theorem State.enable_of_ignored (ignored : d.getLsbD 0 = false ∨ s.en = true) : s.enable d = s :=
  if_neg fun ⟨request, disabled⟩ => by
    rcases ignored with noRequest | enabled
    · exact Bool.false_ne_true (noRequest.symm.trans request)
    · exact Bool.false_ne_true (disabled.symm.trans enabled)

end

/-- R127: a datum up to BORDER_MAX is a colour. -/
theorem borderColour_of_le {p : Platform} {d : Word} (h : d.toNat ≤ p.borderMax.toNat) :
    borderColour p d = some (BitVec.ofNat 6 d.toNat) := by
  rw [borderColour, if_pos h]
  rfl

/-- R127: a larger datum is rejected. -/
theorem exec_wrBorder_of_lt {s : State} {d : Word} (h : s.plat.borderMax.toNat < d.toNat) :
    exec (.wrBorder d) s = answerWrite s := by
  change execWrBorder d s = _
  rw [execWrBorder, borderColour, if_neg (Nat.not_le.mpr h)]

/-- R127: the bytes of `T` after an accepted border write. -/
theorem Memory.recolour_read_of_lt {m : Memory} (wf : m.wf) (b : BitVec 6) {i : Nat} (hi : i < 160) :
    (m.recolour b).read i =
      if 96 ≤ i ∧ (m.read i).getLsbD 6 = true then BitVec.ofNat 8 (0x40 + b.toNat) else m.read i := by
  rw [Memory.recolour_read wf, borderCode_eq_ofNat]
  simp only [hi, and_true, borderFlag]

/-- R128: the preset a datum selects, as a number. -/
theorem presetOfDatum_val (d : Word) : (presetOfDatum d).val = if d.toNat ≤ 2 then d.toNat else 0 := by
  obtain zero | one | two | above : d.toNat = 0 ∨ d.toNat = 1 ∨ d.toNat = 2 ∨ 2 < d.toNat := by omega
  · simp [presetOfDatum, zero]
  · simp [presetOfDatum, one]
  · simp [presetOfDatum, two]
  · rw [presetOfDatum, if_neg (by omega), if_neg (by omega), if_neg (by omega), if_neg (by omega)]
    rfl

end Sys2Proof.Machine
end

section
/-! THEOREMS. The statements of 42_host_access: what each register and the table window answer, which writes are ignored, and what the writes of CTRL, BORDER, MODE and FB_BASE do. -/

namespace Sys2Proof.Machine

/-- Settles O13: each word is the word of its row, and a little-endian read is the sum of its bytes. -/
theorem tableWindowReadsAreLittleEndian : Obligations.TableWindowReadsAreLittleEndian := by
  intro op d s cls window
  refine ⟨fun size => ⟨?_, readTable_eq .byte _ s⟩, fun size aligned => ⟨?_, readTable_eq .half _ s⟩,
    fun size aligned => ⟨?_, readTable_eq .word _ s⟩⟩
  · exact decode_eq_of_readWord cls size (by decide) rfl (decide_eq_true window)
  · exact decode_eq_of_readWord cls size (by decide) rfl (decide_eq_true ⟨window, aligned⟩)
  · exact decode_eq_of_readWord cls size (by decide) rfl (decide_eq_true ⟨window, aligned⟩)

/-- Settles O18: the datum is compared whole, so an accepted one is its own 6-bit colour, which `recolour` puts in the
flagged slots. -/
theorem borderWriteRecoloursFlaggedSlots : Obligations.BorderWriteRecoloursFlaggedSlots := by
  refine fun d s => ⟨decode_of_registerWrite rfl rfl, fun wf accepted => ?_, exec_wrBorder_of_lt⟩
  have colour := borderColour_of_le accepted
  obtain ⟨whole, -⟩ := borderColour_eq_some colour
  refine ⟨_, exec_wrBorder colour, rfl, fun i hi => ?_⟩
  have bytes := Memory.recolour_read_of_lt wf (BitVec.ofNat 6 d.toNat) hi
  rwa [whole] at bytes

/-- Settles O20: the two cases of `State.setPreset`, by EN. -/
theorem modeWriteSelectsThePreset : Obligations.ModeWriteSelectsThePreset :=
  fun d s => ⟨decode_of_registerWrite rfl rfl, presetOfDatum d, presetOfDatum_val d,
    fun disabled => answerWrite_of_eq (s.setPreset_disabled _ disabled),
    fun enabled => answerWrite_of_eq (s.setPreset_enabled _ enabled)⟩

/-- Settles O10: each row answers its register, and a narrow register is widened by its value. -/
theorem plainRegisterReadsAnswerTheRegister : Obligations.PlainRegisterReadsAnswerTheRegister :=
  fun d s =>
    ⟨⟨decode_of_registerRead rfl (by decide) rfl d, answerRead_of_eq (BitVec.ofNat_toNat 32 s.vline).symm s⟩,
      ⟨decode_of_registerRead rfl (by decide) rfl d, answerRead_of_eq (BitVec.ofNat_toNat 32 s.bline).symm s⟩,
      ⟨decode_of_registerRead rfl (by decide) rfl d, rfl⟩,
      ⟨decode_of_registerRead rfl (by decide) rfl d, answerRead_of_eq (BitVec.ofNat_toNat 32 s.border).symm s⟩,
      ⟨decode_of_registerRead rfl (by decide) rfl d, rfl⟩,
      ⟨decode_of_registerRead rfl (by decide) rfl d, rfl⟩⟩

/-- Settles O11: each row answers its register word, and each word is the number its fields make. -/
theorem fieldRegisterReadsAnswerTheirFields : Obligations.FieldRegisterReadsAnswerTheirFields :=
  fun d s =>
    ⟨⟨decode_of_registerRead rfl (by decide) rfl d, answerRead_of_eq s.ctrlWord_eq_ofNat s⟩,
      ⟨decode_of_registerRead rfl (by decide) rfl d, answerRead_of_eq s.statusWord_eq_ofNat s⟩,
      ⟨decode_of_registerRead rfl (by decide) rfl d, answerRead_of_eq s.modeWord_eq_ofNat s⟩,
      ⟨decode_of_registerRead rfl (by decide) rfl d, answerRead_of_eq s.geomWord_eq_ofNat s⟩⟩

/-- Settles O15: each word is the word of its row, whose meaning only answers. -/
theorem readOnlyRegisterWritesChangeNothing : Obligations.ReadOnlyRegisterWritesChangeNothing :=
  fun _ _ =>
    ⟨⟨decode_of_registerWrite rfl rfl, rfl⟩, ⟨decode_of_registerWrite rfl rfl, rfl⟩,
      ⟨decode_of_registerWrite rfl rfl, rfl⟩, ⟨decode_of_registerWrite rfl rfl, rfl⟩,
      ⟨decode_of_registerWrite rfl rfl, rfl⟩, ⟨decode_of_registerWrite rfl rfl, rfl⟩⟩

/-- Settles O17: the two cases of `State.enable`. -/
theorem ctrlWriteEnablesOnce : Obligations.CtrlWriteEnablesOnce :=
  fun _ s => ⟨decode_of_registerWrite rfl rfl,
    fun request disabled => answerWrite_of_eq (s.enable_of_request request disabled),
    fun ignored => answerWrite_of_eq (s.enable_of_ignored ignored)⟩

/-- Settles O21: the two cases of `State.setBase`, by EN. -/
theorem baseWriteSelectsTheBase : Obligations.BaseWriteSelectsTheBase :=
  fun d s => ⟨decode_of_registerWrite rfl rfl, fun disabled => answerWrite_of_eq (s.setBase_disabled d disabled),
    fun enabled => answerWrite_of_eq (s.setBase_enabled d enabled)⟩

end Sys2Proof.Machine
end

section
/-! SUPPORT. What the statements of 43_feed need beside the laws of State and Exec: the row a FEED hands out and the one after it, the element reads of one row, and the rows one after another. -/

namespace Sys2Proof.Machine

section
variable (s : State)

/-! The row (R136, R138). -/

/-- R138: no FEED hands out a row past the last one. -/
theorem State.feedRow_lt : s.feedRow < 256 := by
  unfold State.feedRow Config.height
  split
  · decide
  · omega

/-- R138: a BLINE that has not reached HEIGHT names the row. -/
theorem State.feedRow_of_lt (h : s.bline.toNat < 256) : s.feedRow = s.bline.toNat := if_neg (Nat.not_le.mpr h)

/-- R138: a BLINE of HEIGHT or more wraps to row 0. -/
theorem State.feedRow_of_le (h : 256 ≤ s.bline.toNat) : s.feedRow = 0 := if_pos h

/-- R140: the FEED after this one hands out the next row, and row 0 after the last. -/
theorem State.feedRow_feed : s.feed.feedRow = (s.feedRow + 1) % 256 := by
  have row := s.feedRow_lt
  have bline : s.feed.bline.toNat = s.feedRow + 1 := by
    rw [State.feed_bline, BitVec.toNat_ofNat, Nat.mod_eq_of_lt (by omega)]
  rcases Nat.lt_or_ge (s.feedRow + 1) 256 with inside | past
  · rw [State.feedRow_of_lt _ (by omega), bline, Nat.mod_eq_of_lt inside]
  · have last : s.feedRow + 1 = 256 := by omega
    rw [State.feedRow_of_le _ (by omega), last]

variable {s} {s' : State}

/-- R138: the row depends on BLINE alone. -/
theorem State.feedRow_congr (bline : s'.bline = s.bline) : s'.feedRow = s.feedRow := by
  rw [State.feedRow, State.feedRow, bline]

/-- R136: a row's address depends on the current base and preset alone. -/
theorem State.rowAddr_congr (base : s'.curBase = s.curBase) (preset : s'.curPreset = s.curPreset) (r : Nat) :
    s'.rowAddr r = s.rowAddr r := by
  rw [State.rowAddr, State.rowAddr, State.curWidth, State.curWidth, base, preset]

/-! One row (R88, R151). -/

/-- R55, R150: element reads in a row count up the transfer and leave the rest of the state. -/
theorem runStimuli_pixReads {x : Transfer} (steps : s.stepsElements = true) (hx : s.pch = some x) (pixels : List Byte)
    (left : x.done + pixels.length ≤ x.count) :
    ∃ o, runStimuli (pixels.map .pixRead) s =
      .next { s with pch := some ⟨x.addr, x.count, x.done + pixels.length⟩, out := o } := by
  induction pixels generalizing s x with
  | nil => exact ⟨s.out, by rw [List.length_nil, Nat.add_zero, ← hx]; rfl⟩
  | cons v pixels ih =>
    rw [List.length_cons] at left ⊢
    rw [List.map_cons, runStimuli_cons_of_next (take_pixRead steps hx (by omega) v), Nat.add_comm pixels.length 1,
      ← Nat.add_assoc]
    exact ih (x := x.advance) steps rfl (by simp only [Transfer.advance]; omega)

/-- R69, R137: the word of FEED in a state that enables it. -/
theorem take_evFeed (en : s.en = true) (pend : s.pixPend = true) : take (stimulusOf .evFeed) s = .next s.feed :=
  (take_stimulusOf rfl s).trans (exec_evFeed (s.feedEnabled_iff.mpr ⟨en, pend⟩))

/-- R69, R151: the word of PIX_DONE when the transfer in flight is taken as complete. -/
theorem take_evPixDone {x : Transfer} (hx : s.pch = some x) (complete : s.stepsElements = true → x.done = x.count) :
    take (stimulusOf .evPixDone) s = .next s.completePix :=
  (take_stimulusOf rfl s).trans (exec_evPixDone (s.pixDoneEnabled_iff.mpr ⟨x, hx, complete⟩))

/-- R150, R151: after a FEED, the element reads the model steps complete the transfer, and change only what the
PIX_DONE after them overwrites. -/
theorem runStimuli_rowReads_pixDone {pixels : List Byte} (reads : pixels.length = s.rowReads) :
    runStimuli (pixels.map .pixRead ++ [stimulusOf .evPixDone]) s.feed = .next s.feed.completePix := by
  cases steps : s.stepsElements with
  | false =>
    rw [State.rowReads, if_neg (by simp [steps])] at reads
    rw [List.eq_nil_of_length_eq_zero reads]
    exact runStimuli_cons_of_next (take_evPixDone s.feed_pch (by simp [steps]))
  | true =>
    rw [State.rowReads, if_pos steps] at reads
    obtain ⟨o, run⟩ :=
      runStimuli_pixReads (s.feed_stepsElements.trans steps) s.feed_pch pixels (by rw [Nat.zero_add, reads])
    rw [runStimuli_append_of_next run]
    exact runStimuli_cons_of_next (take_evPixDone rfl fun _ => (Nat.zero_add _).trans reads)

/-- R88: what one row does. -/
theorem runStimuli_row (en : s.en = true) (pend : s.pixPend = true) {pixels : List Byte}
    (reads : pixels.length = s.rowReads) : runStimuli (rowSteps pixels) s = .next s.feed.completePix :=
  (runStimuli_cons_of_next (take_evFeed en pend)).trans (runStimuli_rowReads_pixDone reads)

/-- R140: what rows one after another do to the fields that the next row depends on. -/
theorem runStimuli_rows (rows : List (List Byte)) (en : s.en = true) (pend : s.pixPend = true)
    (reads : ∀ pixels ∈ rows, pixels.length = s.rowReads) :
    ∃ t, runStimuli (rows.flatMap rowSteps) s = .next t ∧ t.en = true ∧ t.pixPend = true ∧
      t.curBase = s.curBase ∧ t.curPreset = s.curPreset ∧ t.feedRow = (s.feedRow + rows.length) % 256 := by
  induction rows generalizing s with
  | nil => exact ⟨s, rfl, en, pend, rfl, rfl, (Nat.mod_eq_of_lt s.feedRow_lt).symm⟩
  | cons pixels rows ih =>
    obtain ⟨first, others⟩ := List.forall_mem_cons.mp reads
    have row : s.feed.completePix.feedRow = (s.feedRow + 1) % 256 := s.feedRow_feed
    obtain ⟨t, run, ten, tpend, tbase, tpreset, trow⟩ := ih (s := s.feed.completePix) en rfl others
    refine ⟨t, ?run, ten, tpend, tbase, tpreset, ?row⟩
    case run => rw [List.flatMap_cons, runStimuli_append_of_next (runStimuli_row en pend first), run]
    case row => rw [trow, row, Nat.mod_add_mod, List.length_cons, Nat.add_assoc, Nat.add_comm 1]

end

end Sys2Proof.Machine
end

section
/-! THEOREMS. The statements of 43_feed: what FEED does, the sequence of rows, and what FEED does not depend on. -/

namespace Sys2Proof.Machine

/-- Settles O29: BLINE = 0 names row 0, and each row moves the next FEED on by one modulo 256. -/
theorem rowsFollowWithPeriod256 : Obligations.RowsFollowWithPeriod256 := by
  intro rows s en pend bline reads
  obtain ⟨t, run, ten, tpend, tbase, tpreset, trow⟩ := runStimuli_rows rows en pend reads
  have start : s.feedRow = 0 := by rw [State.feedRow, bline]; rfl
  rw [start, Nat.zero_add] at trow
  refine ⟨t, t.feed, run, tbase, tpreset, exec_evFeed (t.feedEnabled_iff.mpr ⟨ten, tpend⟩), ?_⟩
  rw [State.feed_out, State.rowAddr, State.curWidth, tbase, tpreset, trow]

/-- Settles O30: an enabled FEED does `State.feed`, whose row comes from BLINE and whose address and count come from the
current base and preset. -/
theorem feedIgnoresTheSyncSide : Obligations.FeedIgnoresTheSyncSide := by
  intro s s' t bline base preset en pend h
  cases effect_of_exec h with
  | answer o only =>
    obtain ⟨-, -, -, -, notFeed, -⟩ := only
    exact absurd rfl notFeed
  | feed enabled =>
    have enabled' : s'.feedEnabled = true := by rwa [State.feedEnabled, en, pend]
    have row := State.feedRow_congr bline
    have addr := State.rowAddr_congr base preset s.feedRow
    have width : s'.curWidth = s.curWidth := congrArg Config.width preset
    refine ⟨s'.feed, exec_evFeed enabled', ?out, ?bline, ?pch, rfl, rfl, rfl⟩
    case out => rw [State.feed_out, State.feed_out, row, addr, width]
    case bline => rw [State.feed_bline, State.feed_bline, row]
    case pch => rw [State.feed_pch, State.feed_pch, row, addr, width]

/-- Settles O28: event 3 is FEED, and the sub-steps of `State.feed` are the stated ones. -/
theorem feedHandsOutTheRow : Obligations.FeedHandsOutTheRow := by
  refine fun d s => ⟨?word, fun en pend => exec_evFeed (s.feedEnabled_iff.mpr ⟨en, pend⟩)⟩
  have cls : opClass 0x8003 = 0b10 := by decide
  have event : decodeEvent (opBody 0x8003) = .evFeed := by decide
  exact (decode_of_event (a := ⟨0x8003, d⟩) cls).trans event

end Sys2Proof.Machine
end

section
/-! SUPPORT. What the statements of 44_frame_pacing need beside the laws of State and Exec: the effect of one stimulus on the fields a polling host watches, and what a run of stimuli without RESET keeps, counts and commits. -/

namespace Sys2Proof.Machine

/-! One stimulus, without RESET (R23). -/

section
variable {r : Stimulus} {s t : State}

/-- R23, R148, R150: a stimulus is an operation, or an element read, which changes only the transfers and the output. -/
theorem take_effect (h : take r s = .next t) :
    (∃ i, r.instr = some i ∧ Effect s i t) ∨
    (r.instr = none ∧ t = { s with sch := t.sch, pch := t.pch, out := t.out }) := by
  rcases take_cases h with ⟨op, d, rfl, hx⟩ | ⟨rfl, hr⟩ | ⟨v, rfl, hr⟩
  · exact .inl ⟨_, rfl, effect_of_exec hx⟩
  · obtain ⟨x, -, -, -, -, -, rfl⟩ := syncElementRead_cases hr
    exact .inr ⟨rfl, rfl⟩
  · obtain ⟨x, -, -, -, rfl⟩ := pixElementRead_cases hr
    exact .inr ⟨rfl, rfl⟩

theorem Stimulus.isDispatch_eq_true_iff : r.isDispatch = true ↔ r.instr = some .evDispatch := beq_iff_eq

theorem Stimulus.writesConfig_cases (config : r.writesConfig = true) :
    (∃ d, r.instr = some (.wrMode d)) ∨ ∃ a, r.instr = some (.wrFbBase a) := by
  unfold Stimulus.writesConfig at config
  split at config
  · exact .inl ⟨_, ‹_›⟩
  · exact .inr ⟨_, ‹_›⟩
  · cases config

/-- R23: a stimulus that is an operation runs it. -/
theorem exec_of_take {i : Instr} (h : take r s = .next t) (hi : r.instr = some i) : exec i s = .next t := by
  cases r <;> cases hi
  exact h

/-- R81, R103: a DISPATCH that answers a next state was enabled, and has done its sub-steps. -/
theorem eq_dispatch_of_take (h : take r s = .next t) (dispatch : r.instr = some .evDispatch) : t = s.dispatch := by
  have hx := exec_of_take h dispatch
  rw [exec_evDispatch (enabled_of_next hx)] at hx
  exact (Host.Outcome.next.inj hx).symm

/-- R81, R149: a SYNC_DONE that answers a next state leaves its event pending. -/
theorem syncPend_of_take_syncDone (h : take r s = .next t) (done : r.instr = some .evSyncDone) : t.syncPend = true := by
  have hx := exec_of_take h done
  rw [exec_evSyncDone (enabled_of_next hx)] at hx
  exact congrArg State.syncPend (Host.Outcome.next.inj hx).symm

/-- R27, R28, R31: VLINE, FRAME and a pending sync event stay until DISPATCH or RESET. -/
theorem sync_side_of_take_of_ne_dispatch (h : take r s = .next t) (noReset : r.isReset = false)
    (noDispatch : r.instr ≠ some .evDispatch) :
    t.vline = s.vline ∧ t.frame = s.frame ∧ (s.syncPend = true → t.syncPend = true) := by
  rcases take_effect h with ⟨i, hi, effect⟩ | ⟨-, e⟩
  · cases effect with
    | enable d => rcases s.enable_cases d with ⟨-, -, e⟩ | ⟨-, e⟩ <;> simp [e]
    | dispatch => exact absurd hi noDispatch
    | reset => simp [Stimulus.isReset, hi] at noReset
    | _ => simp
  · rw [e]
    exact ⟨rfl, rfl, id⟩

/-- R30: only RESET clears EN. -/
theorem en_of_take (h : take r s = .next t) (noReset : r.isReset = false) (en : s.en = true) : t.en = true := by
  rcases take_effect h with ⟨i, hi, effect⟩ | ⟨-, e⟩
  · cases effect with
    | enable d => simp [State.enable_of_ignored s (.inr en), en]
    | reset => simp [Stimulus.isReset, hi] at noReset
    | _ => simpa
  · rwa [e]

/-- R30, R103: while `EN = 0` no DISPATCH is enabled, so without enable and RESET neither EN nor FRAME changes. -/
theorem en_frame_of_take_disabled (h : take r s = .next t) (noCtrl : r.writesCtrl = false) (noReset : r.isReset = false)
    (disabled : s.en = false) : t.en = false ∧ t.frame = s.frame := by
  rcases take_effect h with ⟨i, hi, effect⟩ | ⟨-, e⟩
  · cases effect with
    | enable d => simp [Stimulus.writesCtrl, hi] at noCtrl
    | dispatch enabled =>
      obtain ⟨en, -⟩ := s.dispatchEnabled_iff.mp enabled
      simp [disabled] at en
    | reset => simp [Stimulus.isReset, hi] at noReset
    | _ => simpa
  · rw [e]
    exact ⟨disabled, rfl⟩

/-- R46: a legal line at or past the last line of the frame is the last one. -/
theorem State.VlineLegal.eq_last (legal : s.VlineLegal) (last : 312 ≤ s.vline.toNat) : s.vline = 312 :=
  BitVec.eq_of_toNat_eq (Nat.le_antisymm legal.bounds.2 last)

theorem State.Inv.vlineLegal (inv : s.Inv) : s.VlineLegal := by
  obtain ⟨legal, -⟩ := inv
  exact legal

/-- R103, R110: FRAME counts the DISPATCH steps that find VLINE = 312, and nothing else changes it but RESET. -/
theorem frame_of_take (h : take r s = .next t) (noReset : r.isReset = false) (legal : s.VlineLegal) :
    t.frame = if r.isDispatch ∧ s.vline = 312 then s.frame + 1 else s.frame := by
  by_cases dispatch : r.instr = some .evDispatch
  · obtain rfl := eq_dispatch_of_take h dispatch
    have isDispatch := Stimulus.isDispatch_eq_true_iff.mpr dispatch
    rcases s.dispatch_cases with ⟨hv, e⟩ | ⟨hv, -, e⟩ | ⟨hv, -, e⟩ <;> rw [e]
    · rw [if_neg fun boundary => by simp [boundary.2] at hv]
    · rw [if_pos ⟨isDispatch, legal.eq_last hv⟩]
      exact ofNat_frame_succ s
    · rw [if_pos ⟨isDispatch, legal.eq_last hv⟩]
      exact ofNat_frame_succ s
  · obtain ⟨-, frame, -⟩ := sync_side_of_take_of_ne_dispatch h noReset dispatch
    rw [frame, if_neg fun boundary => dispatch (Stimulus.isDispatch_eq_true_iff.mp boundary.1)]

/-- R146: a stimulus that is no write of FB_BASE leaves the last base. -/
theorem lastBase_singleton_of_ne (ne : ∀ a, r.instr ≠ some (.wrFbBase a)) (base : Word) : lastBase base [r] = base := by
  unfold lastBase
  split
  · exact absurd ‹_› (ne _)
  · rfl

/-- R146: a stimulus that is no write of MODE leaves the last preset. -/
theorem lastPreset_singleton_of_ne (ne : ∀ d, r.instr ≠ some (.wrMode d)) (preset : Preset) :
    lastPreset preset [r] = preset := by
  unfold lastPreset
  split
  · exact absurd ‹_› (ne _)
  · rfl

/-- R128, R129: the pending pair after one stimulus is the one it writes, or the one before it. -/
theorem pending_of_take (h : take r s = .next t) (noReset : r.isReset = false) :
    t.pendBase = lastBase s.pendBase [r] ∧ t.pendPreset = lastPreset s.pendPreset [r] := by
  rcases take_effect h with ⟨i, hi, effect⟩ | ⟨hi, e⟩
  · cases effect with
    | answer o only =>
      obtain ⟨noWrite, -⟩ := only
      exact ⟨(lastBase_singleton_of_ne (by simp [hi, noWrite]) _).symm,
        (lastPreset_singleton_of_ne (by simp [hi, noWrite]) _).symm⟩
    | setPreset d => cases en : s.en <;> simp [State.setPreset, lastBase, lastPreset, hi, en]
    | setBase d => cases en : s.en <;> simp [State.setBase, lastBase, lastPreset, hi, en]
    | reset => simp [Stimulus.isReset, hi] at noReset
    | _ => simp [lastBase, lastPreset, hi]
  · rw [e]
    simp [lastBase, lastPreset, hi]

/-- R106: with `EN = 1`, UPD is clear after a stimulus because it has committed the pending pair, or because it was
clear before, and then the current pair has stayed. -/
theorem current_of_take_of_not_upd (h : take r s = .next t) (noReset : r.isReset = false) (legal : s.VlineLegal)
    (en : s.en = true) (clear : t.upd = false) :
    (r.isDispatch = true ∧ s.vline = 312 ∧ s.upd = true ∧ t.curBase = s.pendBase ∧ t.curPreset = s.pendPreset) ∨
    (s.upd = false ∧ t.curBase = s.curBase ∧ t.curPreset = s.curPreset) := by
  rcases take_effect h with ⟨i, hi, effect⟩ | ⟨-, e⟩
  · cases effect with
    | setPreset d => simp [s.setPreset_enabled _ en] at clear
    | setBase d => simp [s.setBase_enabled _ en] at clear
    | dispatch enabled =>
      rcases s.dispatch_commit_cases with ⟨preset, base, upd⟩ | ⟨hv, upd, preset, base, -⟩
      · exact .inr ⟨upd.symm.trans clear, base, preset⟩
      · exact .inl ⟨Stimulus.isDispatch_eq_true_iff.mpr hi, legal.eq_last hv, upd, base, preset⟩
    | reset => simp [Stimulus.isReset, hi] at noReset
    | _ => exact .inr ⟨by simpa using clear, by simp, by simp⟩
  · rw [e] at clear ⊢
    exact .inr ⟨clear, rfl, rfl⟩

/-- R128, R129: with `EN = 1`, a write of MODE or FB_BASE sets UPD. -/
theorem upd_of_take_config (h : take r s = .next t) (config : r.writesConfig = true) (en : s.en = true) :
    t.upd = true := by
  rcases Stimulus.writesConfig_cases config with ⟨d, hi⟩ | ⟨a, hi⟩
  · obtain rfl := Host.Outcome.next.inj (exec_of_take h hi)
    simp [s.setPreset_enabled _ en]
  · obtain rfl := Host.Outcome.next.inj (exec_of_take h hi)
    simp [s.setBase_enabled _ en]

theorem Stimulus.isReset_of_writesConfig (config : r.writesConfig = true) : r.isReset = false := by
  rcases Stimulus.writesConfig_cases config with ⟨d, hi⟩ | ⟨a, hi⟩ <;> simp [Stimulus.isReset, hi]

end

/-! Runs of stimuli. -/

section
variable {l : List Stimulus} {s t : State}

/-- What each stimulus of a list keeps, the run of the list keeps. -/
theorem runStimuli_keeps {P : State → Prop} (run : runStimuli l s = .next t)
    (step : ∀ r ∈ l, ∀ {x y}, P x → take r x = .next y → P y) (start : P s) : P t := by
  induction l generalizing s with
  | nil => exact Host.Outcome.next.inj run ▸ start
  | cons r l ih =>
    obtain ⟨x, ht, run⟩ := runStimuli_cons_next run
    exact ih run (fun q hq => step q (List.mem_cons_of_mem r hq)) (step r List.mem_cons_self start ht)

theorem State.Inv.runStimuli (inv : s.Inv) (run : runStimuli l s = .next t) : t.Inv :=
  runStimuli_keeps run (fun _ _ _ _ => State.Inv.take) inv

/-- R30: without RESET an enabled block stays enabled. -/
theorem en_of_runStimuli (run : runStimuli l s = .next t) (noReset : ∀ r ∈ l, r.isReset = false) (en : s.en = true) :
    t.en = true :=
  runStimuli_keeps (P := fun x => x.en = true) run (fun r hr _ _ en ht => en_of_take ht (noReset r hr) en) en

/-- R30, R145: while `EN = 0`, a run without enable and RESET leaves FRAME. -/
theorem frame_of_runStimuli_disabled (run : runStimuli l s = .next t)
    (quiet : ∀ r ∈ l, r.writesCtrl = false ∧ r.isReset = false) (disabled : s.en = false) : t.frame = s.frame := by
  have kept : t.en = false ∧ t.frame = s.frame := by
    refine runStimuli_keeps (P := fun x => x.en = false ∧ x.frame = s.frame) run ?_ ⟨disabled, rfl⟩
    rintro r hr x y ⟨off, frame⟩ ht
    obtain ⟨noCtrl, noReset⟩ := quiet r hr
    obtain ⟨off, stays⟩ := en_frame_of_take_disabled ht noCtrl noReset off
    exact ⟨off, stays.trans frame⟩
  exact kept.2

/-- A run's last stimulus. -/
theorem runStimuli_snoc_next {r : Stimulus} (run : runStimuli (l ++ [r]) s = .next t) :
    ∃ x, runStimuli l s = .next x ∧ take r x = .next t := by
  rw [runStimuli_append] at run
  split at run
  · obtain ⟨y, ht, done⟩ := runStimuli_cons_next run
    exact ⟨_, ‹_›, Host.Outcome.next.inj done ▸ ht⟩
  · cases run
  · cases run

/-- R47: what the ports presented last, no stimulus reads. -/
theorem take_present (r : Stimulus) (s : State) (o : Output) : take r (s.present o) = take r s := by
  cases r with
  | access op d => exact exec_present s o _
  | syncRead => rfl
  | pixRead v => rfl

/-- R47: what the ports presented last, no run reads. -/
theorem runStimuli_present {o : Output} (run : runStimuli l (s.present o) = .next t) :
    ∃ x, runStimuli l s = .next x ∧ SameButOutput x t := by
  cases l with
  | nil => exact ⟨s, rfl, Host.Outcome.next.inj run ▸ rfl⟩
  | cons r l =>
    rw [runStimuli, take_present] at run
    exact ⟨t, run, rfl⟩

/-- R110: FRAME differs after a run only if a DISPATCH of it has found VLINE = 312. -/
theorem exists_boundary_of_frame_ne (run : runStimuli l s = .next t) (noReset : ∀ r ∈ l, r.isReset = false)
    (inv : s.Inv) (ne : t.frame ≠ s.frame) :
    ∃ l₁ r l₂ x, l = l₁ ++ r :: l₂ ∧ r.isDispatch = true ∧ runStimuli l₁ s = .next x ∧ x.vline = 312 := by
  induction l generalizing s with
  | nil => exact absurd (Host.Outcome.next.inj run ▸ rfl) ne
  | cons r l ih =>
    obtain ⟨x, ht, run⟩ := runStimuli_cons_next run
    have frame := frame_of_take ht (noReset r List.mem_cons_self) inv.vlineLegal
    by_cases boundary : r.isDispatch ∧ s.vline = 312
    · exact ⟨[], r, l, s, rfl, boundary.1, rfl, boundary.2⟩
    · rw [if_neg boundary] at frame
      obtain ⟨l₁, q, l₂, y, rfl, hq, first, hy⟩ :=
        ih run (fun q hq => noReset q (List.mem_cons_of_mem r hq)) (inv.take ht) (frame ▸ ne)
      exact ⟨r :: l₁, q, l₂, y, rfl, hq, (runStimuli_cons_of_next ht).trans first, hy⟩

theorem lastBase_cons (base : Word) (r : Stimulus) (l : List Stimulus) :
    lastBase base (r :: l) = lastBase (lastBase base [r]) l := by
  simp only [lastBase]
  split <;> rfl

theorem lastPreset_cons (preset : Preset) (r : Stimulus) (l : List Stimulus) :
    lastPreset preset (r :: l) = lastPreset (lastPreset preset [r]) l := by
  simp only [lastPreset]
  split <;> rfl

/-- R146: without RESET the pending pair is the last one written. -/
theorem pending_of_runStimuli (run : runStimuli l s = .next t) (noReset : ∀ r ∈ l, r.isReset = false) :
    t.pendBase = lastBase s.pendBase l ∧ t.pendPreset = lastPreset s.pendPreset l := by
  induction l generalizing s with
  | nil => exact Host.Outcome.next.inj run ▸ ⟨rfl, rfl⟩
  | cons r l ih =>
    obtain ⟨x, ht, run⟩ := runStimuli_cons_next run
    obtain ⟨base, preset⟩ := pending_of_take ht (noReset r List.mem_cons_self)
    rw [lastBase_cons, lastPreset_cons, ← base, ← preset]
    exact ih run fun q hq => noReset q (List.mem_cons_of_mem r hq)

/-- R128, R129: with `EN = 1`, writes of MODE and FB_BASE leave UPD set. -/
theorem upd_of_runStimuli_config (run : runStimuli l s = .next t) (ne : l ≠ [])
    (config : ∀ r ∈ l, r.writesConfig = true) (en : s.en = true) : t.upd = true := by
  obtain ⟨l, r, rfl⟩ := l.eq_nil_or_concat'.resolve_left ne
  obtain ⟨x, before, ht⟩ := runStimuli_snoc_next run
  have enX := en_of_runStimuli before (fun q hq => Stimulus.isReset_of_writesConfig (config q (by simp [hq]))) en
  exact upd_of_take_config ht (config r (by simp)) enX

/-- R106, R146: a run that finds UPD set and leaves it clear has a last commit, and the current pair after the run is
the one that was pending before that DISPATCH. -/
theorem exists_last_commit (run : runStimuli l s = .next t) (noReset : ∀ r ∈ l, r.isReset = false) (inv : s.Inv)
    (en : s.en = true) (waiting : s.upd = true) (clear : t.upd = false) :
    ∃ l₁ r l₂ x, l = l₁ ++ r :: l₂ ∧ runStimuli l₁ s = .next x ∧ r.isDispatch = true ∧ x.vline = 312 ∧ x.upd = true ∧
      t.curBase = x.pendBase ∧ t.curPreset = x.pendPreset := by
  induction l using List.reverseRecOn generalizing t with
  | nil => exact absurd (waiting.symm.trans (Host.Outcome.next.inj run ▸ clear)) (by decide)
  | append_singleton l r ih =>
    obtain ⟨x, before, ht⟩ := runStimuli_snoc_next run
    have noReset' : ∀ q ∈ l, q.isReset = false := fun q hq => noReset q (List.mem_append_left _ hq)
    have legal := (inv.runStimuli before).vlineLegal
    rcases current_of_take_of_not_upd ht (noReset r (by simp)) legal (en_of_runStimuli before noReset' en) clear with
      ⟨dispatch, vline, upd, base, preset⟩ | ⟨upd, base, preset⟩
    · exact ⟨l, r, [], x, rfl, before, dispatch, vline, upd, base, preset⟩
    · obtain ⟨l₁, q, l₂, y, rfl, first, dispatch, vline, updY, baseY, presetY⟩ := ih before noReset' upd
      exact ⟨l₁, q, l₂ ++ [r], y, by simp, first, dispatch, vline, updY, base.trans baseY, preset.trans presetY⟩

end

end Sys2Proof.Machine
end

section
/-! SUPPORT. The polling loops as runs of the stimuli in their gaps (R143, R146). -/

namespace Sys2Proof.Machine

/-- R60: a host read of a register that answers `value` changes only what the ports present. -/
theorem hostRead_of_answerRead {i : Instr} (wf : i.WellFormed) {value : Word} {s : State}
    (h : exec i s = answerRead value s) : hostRead i s = some (value, s.present (.rdata value)) := by
  rw [hostRead, take_stimulusOf wf, h]
  rfl

theorem hostRead_rdFrame (s : State) : hostRead .rdFrame s = some (s.frame, s.present (.rdata s.frame)) :=
  hostRead_of_answerRead rfl rfl

theorem hostRead_rdStatus (s : State) : hostRead .rdStatus s = some (s.statusWord, s.present (.rdata s.statusWord)) :=
  hostRead_of_answerRead rfl rfl

theorem hostRead_present (reg : Instr) (s : State) (o : Output) : hostRead reg (s.present o) = hostRead reg s := by
  rw [hostRead, take_present, hostRead]

section
variable {reg : Instr} {accept : Word → Bool} {gap : List Stimulus} {gaps : List (List Stimulus)} {s t u : State}
  {v : Word}

/-- R88: a loop that ends has run its first gap and read the register. -/
theorem poll_cons_returned (h : poll reg accept (gap :: gaps) s = .returned v u) :
    ∃ t w x, runStimuli gap s = .next t ∧ hostRead reg t = some (w, x) ∧
      ((accept w = true ∧ w = v ∧ x = u) ∨ poll reg accept gaps x = .returned v u) := by
  unfold poll at h
  split at h
  · rename_i t ht
    split at h
    · rename_i w x hread
      split at h
      · cases h
        exact ⟨t, v, u, ht, hread, .inl ⟨‹_›, rfl, rfl⟩⟩
      · exact ⟨t, w, x, ht, hread, .inr h⟩
    · cases h
  · cases h

/-- R60, R88: a loop that ends has run the gaps up to its last read, whose value it accepted. The reads before the last
leave no trace in what the others do, as they change only what the ports present. -/
theorem exists_run_of_poll_returned
    (readOnly : ∀ {s t w}, hostRead reg s = some (w, t) → t = s.present (.rdata w))
    (h : poll reg accept gaps s = .returned v u) :
    ∃ used rest t, gaps.flatten = used ++ rest ∧ runStimuli used s = .next t ∧ hostRead reg t = some (v, u) ∧
      accept v = true := by
  induction gaps generalizing s with
  | nil => cases h
  | cons gap gaps ih =>
    obtain ⟨t, w, x, first, hread, ⟨hw, rfl, rfl⟩ | later⟩ := poll_cons_returned h
    · exact ⟨gap, gaps.flatten, t, rfl, first, hread, hw⟩
    · obtain rfl := readOnly hread
      obtain ⟨used, rest, y, hflat, run, last, hv⟩ := ih later
      obtain ⟨z, runZ, same⟩ := runStimuli_present run
      refine ⟨gap ++ used, rest, z, ?flat, ?run, ?last, hv⟩
      case flat => rw [List.flatten_cons, hflat, List.append_assoc]
      case run => rw [runStimuli_append_of_next first, runZ]
      case last =>
        rw [same] at last
        exact (hostRead_present reg z _).symm.trans last

end

section
variable {gaps : List (List Stimulus)} {s u : State} {v : Word}

/-- R143: a `wait_frame` that returns has run its gaps up to a state where FRAME differs from its first read. -/
theorem exists_run_of_waitFrame_returned (h : waitFrame gaps s = .returned v u) :
    ∃ used rest t, gaps.flatten = used ++ rest ∧ runStimuli used s = .next t ∧ t.frame ≠ s.frame := by
  rw [waitFrame, hostRead_rdFrame] at h
  obtain ⟨used, rest, y, hflat, run, last, hv⟩ := exists_run_of_poll_returned
    (fun {s _ _} hread => by rw [hostRead_rdFrame] at hread; cases hread; rfl) h
  obtain ⟨t, run, same⟩ := runStimuli_present run
  rw [hostRead_rdFrame] at last
  cases last
  rw [same] at hv
  exact ⟨used, rest, t, hflat, run, by simpa using hv⟩

/-- R113: bit 2 of STATUS is UPD. -/
theorem State.statusWord_and_four_eq_zero (s : State) : s.statusWord &&& 0x4 = 0 ↔ s.upd = false := by
  have field : ∀ upd pix sync : Bool,
      (BitVec.ofBool upd ++ BitVec.ofBool pix ++ BitVec.ofBool sync).setWidth 32 &&& 0x4#32 = 0 ↔ upd = false := by
    decide
  exact field s.upd s.pixPend s.syncPend

/-- R146: a poll of STATUS.UPD that ends has run its gaps up to a state where UPD is clear, and then read STATUS. -/
theorem exists_run_of_waitCommit_returned (h : waitCommit gaps s = .returned v u) :
    ∃ used rest t, gaps.flatten = used ++ rest ∧ runStimuli used s = .next t ∧ SameButOutput t u ∧ t.upd = false := by
  obtain ⟨used, rest, t, hflat, run, last, hv⟩ := exists_run_of_poll_returned
    (fun {s _ _} hread => by rw [hostRead_rdStatus] at hread; cases hread; rfl) h
  rw [hostRead_rdStatus] at last
  cases last
  exact ⟨used, rest, t, hflat, run, rfl, t.statusWord_and_four_eq_zero.mp (beq_iff_eq.mp hv)⟩

end

/-- R88, R128: the write of `set_mode`. -/
theorem runStimuli_setModeWrite (p : Word) (s : State) :
    runStimuli (setModeWrite p) s = .next ((s.setPreset (presetOfDatum p)).present .writeDone) :=
  runStimuli_cons_of_next (take_stimulusOf rfl s)

/-- What holds of every stimulus in the gaps holds of those a loop has come to. -/
theorem forall_mem_of_flatten_eq {P : Stimulus → Prop} {gaps : List (List Stimulus)} {used rest : List Stimulus}
    (h : gaps.flatten = used ++ rest) (all : ∀ g ∈ gaps, ∀ r ∈ g, P r) : ∀ r ∈ used, P r := by
  intro r hr
  obtain ⟨g, hg, hrg⟩ := List.mem_flatten.mp (h ▸ List.mem_append_left rest hr)
  exact all g hg r hrg

end Sys2Proof.Machine
end

section
/-! SUPPORT. Runs without RESET that start enabled (R145, R159): DISPATCH steps again and again, so frame boundaries do, FRAME counts them, and the steps of a host master that waits for a frame are those of `wait_frame`. -/

namespace Sys2Proof.Machine

section
variable {ρ : Run}

/-- R23: each step of a run is its stimulus taken. -/
theorem Run.Follows.takes (follows : ρ.Follows) (n : Nat) : take (ρ.label n) (ρ.state n) = .next (ρ.state (n + 1)) :=
  follows.1 n

theorem Run.Follows.inv (follows : ρ.Follows) (inv₀ : (ρ.state 0).Inv) (n : Nat) : (ρ.state n).Inv := by
  induction n with
  | zero => exact inv₀
  | succ n ih => exact ih.take (follows.takes n)

theorem Run.Follows.en (follows : ρ.Follows) (noReset : ρ.NoReset) (en₀ : (ρ.state 0).en = true) (n : Nat) :
    (ρ.state n).en = true := by
  induction n with
  | zero => exact en₀
  | succ n ih => exact en_of_take (follows.takes n) (noReset n) ih

/-- R27, R31: while no DISPATCH steps, VLINE stays and so does a pending sync event. -/
theorem Run.Follows.sync_side_until_dispatch (follows : ρ.Follows) (noReset : ρ.NoReset) {n k : Nat} (hnk : n ≤ k)
    (noDispatch : ∀ i, n ≤ i → i < k → (ρ.label i).instr ≠ some .evDispatch) :
    (ρ.state k).vline = (ρ.state n).vline ∧ ((ρ.state n).syncPend = true → (ρ.state k).syncPend = true) := by
  induction k, hnk using Nat.le_induction with
  | base => exact ⟨rfl, id⟩
  | succ k hnk ih =>
    obtain ⟨vline, pend⟩ := ih fun i hi hik => noDispatch i hi (hik.trans k.lt_succ_self)
    obtain ⟨vline', -, pend'⟩ :=
      sync_side_of_take_of_ne_dispatch (follows.takes k) (noReset k) (noDispatch k hnk k.lt_succ_self)
    exact ⟨vline'.trans vline, pend' ∘ pend⟩

/-- The frame boundaries only grow in number. -/
theorem Run.boundaries_monotone (ρ : Run) : Monotone ρ.boundaries :=
  monotone_nat_of_le_succ fun _ => Nat.le_add_right _ _

/-- R110: one more frame boundary has stepped after a DISPATCH that finds VLINE = 312. -/
theorem Run.boundaries_succ_of_boundary {n : Nat} (dispatch : (ρ.label n).isDispatch = true)
    (last : (ρ.state n).vline = 312) : ρ.boundaries (n + 1) = ρ.boundaries n + 1 :=
  congrArg _ (if_pos ⟨dispatch, last⟩)

end

section
variable {ρ : Run} (follows : ρ.Follows) (noReset : ρ.NoReset) (inv₀ : (ρ.state 0).Inv) (en₀ : (ρ.state 0).en = true)
include follows noReset

/-! FRAME counts the frame boundaries (R28, R110). -/

section
include inv₀

/-- R110: FRAME is its first value and the number of frame boundaries since, modulo 2^32. -/
theorem Run.frame_eq_boundaries (n : Nat) :
    (ρ.state n).frame = (ρ.state 0).frame + BitVec.ofNat 32 (ρ.boundaries n) := by
  induction n with
  | zero => exact (BitVec.add_zero _).symm
  | succ n ih =>
    rw [frame_of_take (follows.takes n) (noReset n) (follows.inv inv₀ n).vlineLegal, Run.boundaries, ih]
    split
    · rw [BitVec.add_assoc, BitVec.ofNat_add]
      rfl
    · rfl

/-- R28: FRAME differs between two moments with one or more, but fewer than 2^32, frame boundaries between them. -/
theorem Run.frame_ne_of_boundaries {p q : Nat} (counted : ρ.boundaries p < ρ.boundaries q)
    (noWrap : ρ.boundaries q < ρ.boundaries p + 2 ^ 32) : (ρ.state q).frame ≠ (ρ.state p).frame := by
  rw [Run.frame_eq_boundaries follows noReset inv₀ q, Run.frame_eq_boundaries follows noReset inv₀ p]
  intro same
  have : ρ.boundaries q % 2 ^ 32 = ρ.boundaries p % 2 ^ 32 := by
    simpa using congrArg BitVec.toNat (add_left_cancel same)
  omega

end

/-! DISPATCH and the frame boundary step again and again (R145, R159). -/

include en₀

/-- R159: from a moment where the sync event is pending, a DISPATCH steps. -/
theorem Run.exists_dispatch_of_syncPend (fair : ρ.FairDispatch) {n : Nat} (pend : (ρ.state n).syncPend = true) :
    ∃ m, n ≤ m ∧ (ρ.label m).instr = some .evDispatch := by
  by_contra never
  push Not at never
  have enabled : ∀ m, n ≤ m → (ρ.state m).dispatchEnabled = true := fun m hm =>
    have stays := follows.sync_side_until_dispatch noReset hm fun i hi _ => never i hi
    (State.dispatchEnabled_iff _).mpr ⟨follows.en noReset en₀ m, stays.2 pend⟩
  obtain ⟨m, hm, dispatch⟩ := fair n enabled
  exact never m hm dispatch

variable (fairDispatch : ρ.FairDispatch) (fairSync : ρ.FairSync)
include inv₀ fairDispatch fairSync

/-- R45, R159: a DISPATCH steps again and again, because at every moment its event is pending or its transfer is in
flight, and then completes. -/
theorem Run.exists_dispatch (n : Nat) : ∃ m, n ≤ m ∧ (ρ.label m).instr = some .evDispatch := by
  cases pend : (ρ.state n).syncPend with
  | true => exact Run.exists_dispatch_of_syncPend follows noReset en₀ fairDispatch pend
  | false =>
    obtain ⟨-, -, -, -, -, tokens, -⟩ := follows.inv inv₀ n
    obtain ⟨sync, -⟩ := tokens.1 (follows.en noReset en₀ n)
    obtain ⟨k, hk, done⟩ := fairSync n (by simpa [pend] using sync)
    obtain ⟨m, hm, dispatch⟩ := Run.exists_dispatch_of_syncPend follows noReset en₀ fairDispatch
      (syncPend_of_take_syncDone (follows.takes k) done)
    exact ⟨m, by omega, dispatch⟩

/-- R159: from every moment on there is a next DISPATCH, and it finds the VLINE of that moment. -/
theorem Run.exists_next_dispatch (n : Nat) :
    ∃ m, n ≤ m ∧ (ρ.label m).instr = some .evDispatch ∧ (ρ.state m).vline = (ρ.state n).vline := by
  classical
  have exists_dispatch := Run.exists_dispatch follows noReset inv₀ en₀ fairDispatch fairSync n
  obtain ⟨hm, dispatch⟩ := Nat.find_spec exists_dispatch
  have stays := follows.sync_side_until_dispatch noReset hm fun i hi before instr =>
    Nat.find_min exists_dispatch before ⟨hi, instr⟩
  exact ⟨_, hm, dispatch, stays.1⟩

/-- R109, R159: a frame boundary steps again and again, by induction on the lines left in the frame, of which the next
DISPATCH produces one. -/
theorem Run.exists_boundary (n : Nat) :
    ∃ m, n ≤ m ∧ (ρ.label m).isDispatch = true ∧ (ρ.state m).vline = 312 := by
  induction left : 312 - (ρ.state n).vline.toNat using Nat.strong_induction_on generalizing n with
  | _ left ih =>
    obtain ⟨m, hm, dispatch, vline⟩ := Run.exists_next_dispatch follows noReset inv₀ en₀ fairDispatch fairSync n
    rcases Nat.lt_or_ge (ρ.state m).vline.toNat 312 with within | last
    · have next : (ρ.state (m + 1)).vline.toNat = (ρ.state m).vline.toNat + 1 := by
        rw [eq_dispatch_of_take (follows.takes m) dispatch, State.dispatch_within _ within]
        simp only [BitVec.toNat_ofNat]
        omega
      obtain ⟨k, hk, boundary⟩ := ih _ (by rw [← left, ← vline]; omega) (m + 1) rfl
      exact ⟨k, by omega, boundary⟩
    · exact ⟨m, hm, Stimulus.isDispatch_eq_true_iff.mpr dispatch, (follows.inv inv₀ m).vlineLegal.eq_last last⟩

/-- R145: FRAME changes again and again, as the next frame boundary counts one. -/
theorem Run.exists_frame_ne (n : Nat) : ∃ m, n ≤ m ∧ (ρ.state m).frame ≠ (ρ.state n).frame := by
  obtain ⟨b, hb, dispatch, last⟩ := Run.exists_boundary follows noReset inv₀ en₀ fairDispatch fairSync n
  have counted : (ρ.state (b + 1)).frame ≠ (ρ.state b).frame :=
    Run.frame_ne_of_boundaries follows noReset inv₀ (by rw [Run.boundaries_succ_of_boundary dispatch last]; omega)
      (by rw [Run.boundaries_succ_of_boundary dispatch last]; omega)
  by_cases same : (ρ.state b).frame = (ρ.state n).frame
  · exact ⟨b + 1, by omega, same ▸ counted⟩
  · exact ⟨b, hb, same⟩

end

/-! The steps of a run as a `wait_frame` (R143). -/

/-- R88: one round of a loop whose gap runs and whose read gets a value. -/
theorem poll_cons_of_hostRead {reg : Instr} {accept : Word → Bool} {gap : List Stimulus} {gaps : List (List Stimulus)}
    {s t u : State} {v : Word} (run : runStimuli gap s = .next t) (read : hostRead reg t = some (v, u)) :
    poll reg accept (gap :: gaps) s = if accept v then .returned v u else poll reg accept gaps u := by
  rw [poll, run]
  simp only [read]

/-- R88: a stimulus put before the first gap is taken before the loop goes on. -/
theorem poll_cons_cons_of_next {reg : Instr} {accept : Word → Bool} {r : Stimulus} {gap : List Stimulus}
    {gaps : List (List Stimulus)} {s t : State} (ht : take r s = .next t) :
    poll reg accept ((r :: gap) :: gaps) s = poll reg accept (gap :: gaps) t := by
  rw [poll, runStimuli_cons_of_next ht, poll]

section
variable {ρ : Run} (follows : ρ.Follows) {m k : Nat}
include follows

/-- R143: a read of FRAME in a run, as the host sees it. -/
theorem Run.Follows.hostRead_rdFrame {n : Nat} (reads : ρ.label n = stimulusOf .rdFrame) :
    hostRead .rdFrame (ρ.state n) = some ((ρ.state n).frame, ρ.state (n + 1)) := by
  have ht := follows.takes n
  rw [reads, take_stimulusOf rfl] at ht
  rw [Machine.hostRead_rdFrame]
  exact congrArg (fun t => some (_, t)) (Host.Outcome.next.inj ht)

/-- R143: the steps of a run up to a read of the host master `m` that shows a FRAME other than `f₀`, where its reads
before have shown `f₀`, are those of a poll that returns: what steps between its reads are the gaps. -/
theorem Run.Follows.exists_poll {f₀ : Word} (d n : Nat) (last : ρ.ReadsFrame m (n + d))
    (changed : (ρ.state (n + d)).frame ≠ f₀)
    (before : ∀ i, n ≤ i → i < n + d → ρ.master i = some m → ρ.label i = stimulusOf .rdFrame ∧ (ρ.state i).frame = f₀) :
    ∃ gaps v, (List.range' n (d + 1)).map ρ.label = gaps.flatMap (fun gap => gap ++ [stimulusOf .rdFrame]) ∧
      poll .rdFrame (fun f => f != f₀) gaps (ρ.state n) = .returned v (ρ.state (n + d + 1)) := by
  induction d generalizing n with
  | zero =>
    refine ⟨[[]], (ρ.state n).frame, by simpa using last.2, ?_⟩
    rw [poll_cons_of_hostRead rfl (follows.hostRead_rdFrame last.2)]
    exact if_pos (by simpa using changed)
  | succ d ih =>
    have shift : n + (d + 1) = n + 1 + d := by omega
    rw [shift] at last changed before ⊢
    obtain ⟨gaps, v, labels, returned⟩ := ih (n + 1) last changed fun i hi => before i (by omega)
    rw [List.range'_succ, List.map_cons, labels]
    by_cases own : ρ.master n = some m
    · obtain ⟨reads, same⟩ := before n (Nat.le_refl n) (by omega) own
      refine ⟨[] :: gaps, v, by simp [reads], ?_⟩
      rw [poll_cons_of_hostRead rfl (follows.hostRead_rdFrame reads), if_neg (by simp [same]), returned]
    · obtain _ | ⟨gap, gaps⟩ := gaps
      · cases returned
      · exact ⟨(ρ.label n :: gap) :: gaps, v, by simp, (poll_cons_cons_of_next (follows.takes n)).trans returned⟩

/-- R143: a host master that waits reads FRAME at its first step after `k`, and at the next ones as long as FRAME has
not changed at its steps. -/
theorem Run.Follows.label_of_waitsFrame (waits : ρ.WaitsFrame m k) {n : Nat} (hn : k < n) (own : ρ.master n = some m)
    (same : ∀ i, k < i → i < n → ρ.master i = some m → (ρ.state i).frame = (ρ.state k).frame) :
    ρ.label n = stimulusOf .rdFrame := by
  obtain ⟨-, -, owns, -⟩ := follows
  obtain ⟨-, readsNext⟩ := waits
  obtain ⟨a, next, -, label⟩ := owns n m own
  obtain rfl : encode .rdFrame = a := Option.some.inj ((readsNext n hn same).symm.trans next)
  exact label

/-- R143: where a waiting host master first sees FRAME changed, its `wait_frame` returns. -/
theorem Run.Follows.exists_waitFrame (waits : ρ.WaitsFrame m k) {j : Nat} (hj : k < j) (own : ρ.master j = some m)
    (changed : (ρ.state j).frame ≠ (ρ.state k).frame)
    (same : ∀ i, k < i → i < j → ρ.master i = some m → (ρ.state i).frame = (ρ.state k).frame) :
    ∃ gaps v, k < j ∧ ρ.ReadsFrame m j ∧ (List.range' k (j + 1 - k)).map ρ.label = waitFrameSteps gaps ∧
      waitFrame gaps (ρ.state k) = .returned v (ρ.state (j + 1)) := by
  have reads : ρ.ReadsFrame m j := ⟨own, follows.label_of_waitsFrame waits hj own same⟩
  have ⟨⟨_, first⟩, _⟩ := waits
  obtain ⟨d, rfl⟩ := Nat.exists_eq_add_of_lt hj
  rw [Nat.add_right_comm k d 1] at reads changed same ⊢
  have before : ∀ i, k + 1 ≤ i → i < k + 1 + d → ρ.master i = some m →
      ρ.label i = stimulusOf .rdFrame ∧ (ρ.state i).frame = (ρ.state k).frame := fun i hi hij own =>
    ⟨follows.label_of_waitsFrame waits hi own fun h hh hhi => same h hh (hhi.trans hij), same i hi hij own⟩
  obtain ⟨gaps, v, labels, returned⟩ := follows.exists_poll d (k + 1) reads changed before
  refine ⟨gaps, v, by omega, reads, ?labels, ?returned⟩
  case labels =>
    rw [show k + 1 + d + 1 - k = d + 1 + 1 by omega, List.range'_succ, List.map_cons, labels, first]
    rfl
  case returned =>
    rw [waitFrame, follows.hostRead_rdFrame first]
    exact returned

end

section
variable {ρ : Run} {m k : Nat}

/-- R143, R159: a host master that waits, and whose reads all show the same FRAME, steps again and again; if FRAME does
not go around between its steps, no frame boundary is among them. -/
theorem Run.exists_step_without_boundary (follows : ρ.Follows) (noReset : ρ.NoReset) (inv₀ : (ρ.state 0).Inv)
    (fairHost : ρ.FairHost) (waits : ρ.WaitsFrame m k) (noWrap : ρ.NoFrameWrapBetweenReads m)
    (same : ∀ i, k < i → ρ.master i = some m → (ρ.state i).frame = (ρ.state k).frame) (n : Nat) :
    ∃ p, n ≤ p ∧ k ≤ p ∧ ρ.master p = some m ∧ ρ.boundaries p = ρ.boundaries k := by
  classical
  obtain ⟨⟨ownK, -⟩, readsNext⟩ := waits
  induction n with
  | zero => exact ⟨k, Nat.zero_le k, Nat.le_refl k, ownK, rfl⟩
  | succ n ih =>
    obtain ⟨p, hnp, hkp, own, count⟩ := ih
    have next : ∃ q, p < q ∧ ρ.master q = some m :=
      fairHost (p + 1) m _ (readsNext (p + 1) (by omega) fun i hi _ => same i hi)
    obtain ⟨hpq, ownQ⟩ := Nat.find_spec next
    have consecutive : ∀ i, p < i → i < Nat.find next → ρ.master i ≠ some m := fun i hi before ownI =>
      Nat.find_min next before ⟨hi, ownI⟩
    have frame : (ρ.state (Nat.find next)).frame = (ρ.state p).frame := by
      rw [same _ (by omega) ownQ]
      rcases hkp.eq_or_lt with rfl | hkp
      · rfl
      · exact (same p hkp own).symm
    have fewer := noWrap p _ hpq own ownQ consecutive
    have grows := ρ.boundaries_monotone hpq.le
    have noneBetween : ρ.boundaries (Nat.find next) = ρ.boundaries p := by
      by_contra ne
      exact Run.frame_ne_of_boundaries follows noReset inv₀ (by omega) fewer frame
    exact ⟨_, by omega, by omega, ownQ, noneBetween.trans count⟩

end

end Sys2Proof.Machine
end

section
/-! THEOREMS. The statements of 44_frame_pacing: when `wait_frame` hangs, what its return and the end of a poll of STATUS.UPD mean, and that FRAME changes and `wait_frame` ends in a fair run. -/

namespace Sys2Proof.Machine

/-- Settles O57: while `EN = 0` no step of the gaps changes EN or FRAME, so no read differs from the first. -/
theorem waitFrameHangsWhileDisabled : Obligations.WaitFrameHangsWhileDisabled := by
  intro gaps s disabled quiet v t h
  obtain ⟨used, rest, x, hflat, run, ne⟩ := exists_run_of_waitFrame_returned h
  exact ne (frame_of_runStimuli_disabled run (forall_mem_of_flatten_eq hflat quiet) disabled)

/-- Settles O58: the last read differs from the first, so a step of the gaps between them has counted a frame. -/
theorem waitFrameReturnMeansFrameBoundary : Obligations.WaitFrameReturnMeansFrameBoundary := by
  intro gaps s t v inv noReset h
  obtain ⟨used, rest, x, hflat, run, ne⟩ := exists_run_of_waitFrame_returned h
  obtain ⟨l₁, r, l₂, y, rfl, dispatch, first, last⟩ :=
    exists_boundary_of_frame_ne run (forall_mem_of_flatten_eq hflat noReset) inv ne
  exact ⟨l₁, r, l₂ ++ rest, y, by simpa using hflat, dispatch, first, last⟩

/-- Settles O59: the writes set UPD, so a run that finds it clear has a last commit, after which nothing was written. -/
theorem setModeProtocolInstallsTheWrites : Obligations.SetModeProtocolInstallsTheWrites := by
  refine ⟨fun writes gaps s t u v inv en ne config noReset run h => ?poll,
    fun p gaps s => ⟨fun en => ?direct, fun en => ?deferred⟩⟩
  case poll =>
    have noReset' : ∀ r ∈ writes, r.isReset = false := fun r hr => Stimulus.isReset_of_writesConfig (config r hr)
    obtain ⟨used, rest, y, hflat, runY, same, clear⟩ := exists_run_of_waitCommit_returned h
    have noReset := forall_mem_of_flatten_eq hflat noReset
    obtain ⟨l₁, r, l₂, x, rfl, before, dispatch, last, upd, base, preset⟩ :=
      exists_last_commit runY noReset (inv.runStimuli run) (en_of_runStimuli run noReset' en)
        (upd_of_runStimuli_config run ne config en) clear
    obtain ⟨pendBase, pendPreset⟩ := pending_of_runStimuli ((runStimuli_append_of_next run).trans before) fun q hq =>
      (List.mem_append.mp hq).elim (noReset' q) fun hq => noReset q (List.mem_append_left _ hq)
    refine ⟨l₁, r, l₂, rest, x, y, hflat, before, dispatch, last, upd, runY, same, ?upd, ?base, ?preset⟩ <;> rw [same]
    case upd => exact clear
    case base => exact base.trans pendBase
    case preset => exact preset.trans pendPreset
  case direct =>
    rw [pseudoSetMode, runStimuli_setModeWrite, s.setPreset_disabled _ en]
    exact if_neg (by simp [en])
  case deferred =>
    rw [pseudoSetMode, runStimuli_setModeWrite, s.setPreset_enabled _ en]
    exact if_pos (by simp [en])

/-- Settles O60: there are frame boundaries past every moment, and a waiting host that never saw FRAME change would step
again and again without one. -/
theorem frameChangesInFairRuns : Obligations.FrameChangesInFairRuns := by
  intro ρ follows noReset inv₀ en₀ fairDispatch fairSync
  refine ⟨Run.exists_frame_ne follows noReset inv₀ en₀ fairDispatch fairSync, fun fairHost m k waits noWrap => ?_⟩
  classical
  have sees : ∃ j, k < j ∧ ρ.master j = some m ∧ (ρ.state j).frame ≠ (ρ.state k).frame := by
    by_contra never
    push Not at never
    obtain ⟨b, hb, dispatch, last⟩ := Run.exists_boundary follows noReset inv₀ en₀ fairDispatch fairSync k
    obtain ⟨p, hp, -, -, count⟩ :=
      Run.exists_step_without_boundary follows noReset inv₀ fairHost waits noWrap never (b + 1)
    have counted := Run.boundaries_succ_of_boundary dispatch last
    have := ρ.boundaries_monotone hp
    have := ρ.boundaries_monotone hb
    omega
  obtain ⟨hj, own, changed⟩ := Nat.find_spec sees
  refine ⟨_, follows.exists_waitFrame waits hj own changed fun i hi before ownI => ?_⟩
  by_contra ne
  exact Nat.find_min sees before ⟨hi, ownI, ne⟩

end Sys2Proof.Machine
end

section
/-! SUPPORT. What the statements of 60_exceptions need beside the laws of Encoding, State and Exec: the outputs an event can present, the answer to a host access of a legal size and alignment, the word of an event, and the steps of one cycle. -/

namespace Sys2Proof

/-- R69, R80: the word of an event decodes to it, whatever the datum lines carry. -/
theorem decode_of_eventWord {i : Instr} {op : OpWord} (word : encode i = ⟨op, 0⟩) (cls : opClass op = 0b10)
    (wf : i.WellFormed) (d : Word) : decode ⟨op, d⟩ = i := by
  calc decode ⟨op, d⟩ = decodeEvent (opBody op) := decode_of_event (a := ⟨op, d⟩) cls
    _ = decode ⟨op, 0⟩ := (decode_of_event (a := ⟨op, 0⟩) cls).symm
    _ = i := by rw [← word, decode_encode wf]

end Sys2Proof

namespace Sys2Proof.Machine

/-! Which words can present an error response (R153). -/

section
variable {n : AccessSize} {off : Offset}

/-- R57, R71: an aligned read that is not a narrow one of the register region answers data. -/
theorem exec_decodeRead_of_legal (aligned : Aligned n off) (wide : InRegisterRegion off → n = .word) (s : State) :
    ∃ v, exec (decodeRead n off) s = answerRead v s := by
  have noRegister : n ≠ .word → ¬ InRegisterRegion off := mt wide
  cases n with
  | byte =>
    rw [decodeRead, if_neg (noRegister nofun)]
    split_ifs <;> exact ⟨_, rfl⟩
  | half =>
    rw [decodeRead, if_neg (not_not.mpr aligned), if_neg (noRegister nofun)]
    split_ifs <;> exact ⟨_, rfl⟩
  | word =>
    rw [decodeRead, if_neg (not_not.mpr aligned)]
    split_ifs
    · exact exec_decodeRegRead off s
    all_goals exact ⟨_, rfl⟩

/-- R57, R71: an aligned write that is not a narrow one of the register region ends with the write-complete response. -/
theorem exec_decodeWrite_of_legal (aligned : Aligned n off) (wide : InRegisterRegion off → n = .word) (d : Word)
    (s : State) : ∃ u, exec (decodeWrite n off d) s = answerWrite u := by
  have noRegister : n ≠ .word → ¬ InRegisterRegion off := mt wide
  cases n with
  | byte =>
    rw [decodeWrite, if_neg (noRegister nofun)]
    split_ifs <;> exact ⟨_, rfl⟩
  | half =>
    rw [decodeWrite, if_neg (not_not.mpr aligned), if_neg (noRegister nofun)]
    split_ifs <;> exact ⟨_, rfl⟩
  | word =>
    rw [decodeWrite, if_neg (not_not.mpr aligned)]
    split_ifs
    · exact exec_decodeRegWrite off d s
    all_goals exact ⟨_, rfl⟩

end

section
variable {s t : State} {c : BusErrorCause} {o : Offset}

/-- R153: an event presents a start or nothing. -/
theorem out_ne_busError_of_event {body : BitVec 14} (h : exec (decodeEvent body) s = .next t) : t.out ≠ .busError c o := by
  unfold decodeEvent at h
  split_ifs at h
  · rw [exec_evSyncDone (enabled_of_next h)] at h
    cases h
    nofun
  · rw [exec_evPixDone (enabled_of_next h)] at h
    cases h
    nofun
  · rw [exec_evDispatch (enabled_of_next h)] at h
    cases h
    simp
  · rw [exec_evFeed (enabled_of_next h)] at h
    cases h
    nofun
  · cases h
    nofun
  · cases h

/-- R153: only a host word of a legal size presents an error response. -/
theorem host_of_busError {a : Access} (h : exec (decode a) s = .next t) (error : t.out = .busError c o) :
    (opClass a.op = 0b00 ∨ opClass a.op = 0b01) ∧ ∃ n, sizeOfSz (opSz a.op) = some n := by
  rcases decode_cases a with ⟨-, e⟩ | ⟨-, e⟩ | ⟨-, -, e⟩ | ⟨n, cls, size, -⟩ | ⟨n, cls, size, -⟩
  · rw [e] at h
    cases h
  · rw [e] at h
    exact absurd error (out_ne_busError_of_event h)
  · rw [e] at h
    cases h
  · exact ⟨.inl cls, n, size⟩
  · exact ⟨.inr cls, n, size⟩

/-- R57, R153: an aligned host access that is not a narrow one of the register region ends without an error. -/
theorem out_ne_busError_of_legal {a : Access} {n : AccessSize} (host : opClass a.op = 0b00 ∨ opClass a.op = 0b01)
    (size : sizeOfSz (opSz a.op) = some n) (aligned : Aligned n (opOff a.op))
    (wide : InRegisterRegion (opOff a.op) → n = .word) (h : exec (decode a) s = .next t) : t.out ≠ .busError c o := by
  rcases decode_of_host host size with e | e <;> rw [e] at h
  · obtain ⟨v, answer⟩ := exec_decodeRead_of_legal aligned wide s
    rw [answer] at h
    cases h
    nofun
  · obtain ⟨u, answer⟩ := exec_decodeWrite_of_legal aligned wide a.wdata s
    rw [answer] at h
    cases h
    nofun

end

/-! The steps of one cycle (R158). -/

section
variable {s : State}

/-- R128: the word of a MODE write in an enabled block. -/
theorem take_wrMode_enabled (en : s.en = true) (d : Word) : take (stimulusOf (.wrMode d)) s =
    .next { s with pendPreset := presetOfDatum d, upd := true, out := .writeDone } :=
  (take_stimulusOf rfl s).trans (answerWrite_of_eq (s.setPreset_enabled _ en))

/-- R129: the word of an FB_BASE write in an enabled block. -/
theorem take_wrFbBase_enabled (en : s.en = true) (a : Word) : take (stimulusOf (.wrFbBase a)) s =
    .next { s with pendBase := a, upd := true, out := .writeDone } :=
  (take_stimulusOf rfl s).trans (answerWrite_of_eq (s.setBase_enabled a en))

/-- R128, R129: the two writes of an enabled block together set the pending pair. -/
theorem runStimuli_wrMode_wrFbBase (en : s.en = true) (d a : Word) :
    runStimuli [stimulusOf (.wrMode d), stimulusOf (.wrFbBase a)] s =
      .next { s with pendPreset := presetOfDatum d, pendBase := a, upd := true, out := .writeDone } := by
  rw [runStimuli_cons_of_next (take_wrMode_enabled en d)]
  refine runStimuli_cons_of_next (take_wrFbBase_enabled ?_ a)
  exact en

end

/-- R158: RESET is the only step of its cycle. -/
theorem Cycle.stimuli_of_reset {c : Cycle} (reset : c.reset = true) : c.stimuli = [stimulusOf .evReset] := if_pos reset

/-- R158: the first host read of a cycle comes before everything else in it. -/
theorem Cycle.stimuli_of_hostRead {c : Cycle} {op : OpWord} {rest : List OpWord} (noReset : c.reset = false)
    (reads : c.hostReads = op :: rest) : c.stimuli = .access op 0 :: Cycle.stimuli { c with hostReads := rest } := by
  simp [Cycle.stimuli, noReset, reads]

end Sys2Proof.Machine
end

section
/-! THEOREMS. The statements of 60_exceptions: the error response and the words that give it, the completions, and the order of the steps in one cycle. -/

namespace Sys2Proof.Machine

/-- Settles O7: events and illegal words give no error response, and a host word gives its own by alignment first, then
by region and size. -/
theorem onlyBadHostAccessesGetBusError : Obligations.OnlyBadHostAccessesGetBusError := by
  intro a s t c o h error
  obtain ⟨host, n, size⟩ := host_of_busError h error
  obtain ⟨misaligned, wrongSize⟩ := badHostAccessesEndInBusError a n s host size
  by_cases aligned : Aligned n (opOff a.op)
  case neg =>
    rw [misaligned aligned] at h
    cases h
    cases error
    exact ⟨rfl, host, n, size, .inl ⟨rfl, aligned⟩⟩
  by_cases narrow : InRegisterRegion (opOff a.op) ∧ n ≠ .word
  case pos =>
    rw [wrongSize aligned narrow.1 narrow.2] at h
    cases h
    cases error
    exact ⟨rfl, host, n, size, .inr ⟨rfl, aligned, narrow⟩⟩
  case neg =>
    exact absurd error (out_ne_busError_of_legal host size aligned (by simpa using narrow) h)

/-- Settles O55: FEED steps before the commit of DISPATCH, and the two writes after it find EN = 1 and UPD = 0. -/
theorem sameCycleWritesMissTheCommit : Obligations.SameCycleWritesMissTheCommit := by
  intro s m b en syncPend pixPend last upd
  have events : runStimuli [stimulusOf .evFeed, stimulusOf .evDispatch] s = .next s.feed.dispatch :=
    (runStimuli_cons_of_next (take_evFeed en pixPend)).trans (runStimuli_cons_of_next (take_evDispatch en syncPend))
  have writes := runStimuli_wrMode_wrFbBase (s := s.feed.dispatch) (s.feed.dispatch_en.trans en) m b
  refine ⟨_, (runStimuli_append_of_next events).trans writes, ?_⟩
  rw [s.feed.dispatch_commit last upd]
  exact ⟨s.feed_pch, rfl, rfl, rfl, rfl, rfl, rfl, ofNat_frame_succ s⟩

/-- Settles O56: RESET is alone in its cycle, and the cycle's first read, which changes only the output, leaves the
others to step. -/
theorem cycleReadsFirstAndResetOverrides : Obligations.CycleReadsFirstAndResetOverrides := by
  refine ⟨fun s c reset => ?reset, fun s c op rest noReset reads => ?read⟩
  case reset =>
    rw [Cycle.stimuli_of_reset reset]
    exact runStimuli_cons_of_next (take_stimulusOf rfl s)
  case read =>
    rw [Cycle.stimuli_of_hostRead noReset reads]
    refine ⟨_, rfl, fun cls legal => ?_⟩
    obtain ⟨t, run, read, -⟩ := hostWordsAlwaysComplete ⟨op, 0⟩ s ⟨.inl cls, legal⟩
    exact ⟨t, run, (read cls).1, runStimuli_cons_of_next run⟩

/-- Settles O6: the eight forms are `raiseBusError` with their cause, which sets only what the ports present. -/
theorem busErrorFormsAnswerTheirCause : Obligations.BusErrorFormsAnswerTheirCause :=
  fun _ _ _ => ⟨rfl, rfl, rfl, rfl, rfl, rfl, rfl, rfl, rfl, rfl⟩

/-- Settles O32: the two words are those of the completions, which are enabled when their transfer is complete. -/
theorem completionsSetTheirPendingBit : Obligations.CompletionsSetTheirPendingBit := by
  refine fun d s x => ⟨decode_of_eventWord rfl (by decide) rfl d, decode_of_eventWord rfl (by decide) rfl d,
    fun complete => ⟨fun busy => ?sync, fun busy => ?picture⟩⟩
  case sync => exact exec_evSyncDone (s.syncDoneEnabled_iff.mpr ⟨x, busy, complete⟩)
  case picture => exact exec_evPixDone (s.pixDoneEnabled_iff.mpr ⟨x, busy, complete⟩)

end Sys2Proof.Machine
end

section
/-! SUPPORT. What the statements of 70_reset_and_hazards need beside the laws of State and Exec: the one state a FEED can lead to, and the table memory after RESET. -/

namespace Sys2Proof.Machine

/-- R81, R137: a FEED that is not refused was enabled, and does `State.feed`. -/
theorem eq_feed_of_next {s t : State} (h : exec .evFeed s = .next t) : s.feedEnabled = true ∧ t = s.feed := by
  have enabled : s.feedEnabled = true := enabled_of_next h
  rw [exec_evFeed enabled] at h
  cases h
  exact ⟨enabled, rfl⟩

/-- R40, R170: after RESET every index of `T` reads as the reference layout with border colour 0. -/
theorem State.doReset_tbl_read (s : State) : s.doReset.tbl.read = layoutCode 0 := by
  funext i
  rw [State.doReset_tbl, Memory.read_nil, resetCode]

end Sys2Proof.Machine
end

section
/-! THEOREMS. The statements of 70_reset_and_hazards: the row in flight after a FEED, and the state after RESET. -/

namespace Sys2Proof.Machine

/-- Settles O51: the tokens of R45 leave the channel of an enabled FEED idle, and the row it hands out is below HEIGHT. -/
theorem feedLeavesNoOldRowInFlight : Obligations.FeedLeavesNoOldRowInFlight := by
  intro s t inv fed
  obtain ⟨-, -, -, -, -, tokens, -, -⟩ := inv
  obtain ⟨enabled, rfl⟩ := eq_feed_of_next fed
  exact ⟨tokens.pch_of_feedEnabled enabled, s.feedRow, s.feedRow_lt, s.feed_pch⟩

/-- Settles O34: event 4 is RESET, which sets every register, and its table memory is the reference layout of R91 at
border colour 0. -/
theorem resetRestoresTheResetState : Obligations.ResetRestoresTheResetState := by
  refine fun d s => ⟨decode_of_eventWord rfl (by decide) rfl d, s.doReset, rfl, rfl, ?tables⟩
  rw [s.doReset_tbl_read]
  exact referenceLayoutBytes 0

end Sys2Proof.Machine
end
